-- ==== Sys2Proof/Word.lean ====
section
/-! DEFINITION. Bytes and words (spec 00_scope.md rule R17): a byte is an unsigned 8-bit value, a word an
unsigned 16-bit value. Addresses are natural numbers. -/

namespace Sys2Proof

/-- An unsigned 8-bit value (R17). -/
abbrev Byte := BitVec 8

/-- An unsigned 16-bit value (R17). -/
abbrev Word := BitVec 16

end Sys2Proof
end

