-- ==== Sys2Proof/Config.lean ====
section
/-! DEFINITION. The configuration of 00_scope.md rules R7 to R16, the choices the agents other than BLOCK make
(R22), and the free values of the spec as constants with no body. -/

namespace Sys2Proof

/-- The OPEN parameters of 00_scope.md rules R8 to R15. No step changes them (R30). -/
structure Config where
  /-- `PAGE_SIZE` (R8). -/
  pageSize : Nat
  /-- `APP_START` (R9). -/
  appStart : Nat
  /-- `FLASH_SIZE` (R10). -/
  flashSize : Nat
  /-- `ADDR_BITS` (R10). -/
  addrBits : Nat
  /-- `EEPROM_SIZE` (R11). -/
  eepromSize : Nat
  /-- `FLAG_ADDR` (R11). -/
  flagAddr : Nat
  /-- `PROGRAMMED_MARKER` (R12). -/
  programmedMarker : Byte
  /-- `READY_PROBE` (R13). -/
  readyProbe : Byte
  /-- `HANDSHAKE_POLLS` (R14). -/
  handshakePolls : Nat
  /-- `CTRL_ACTIVE` (R15), a level: `true` is 1. -/
  ctrlActive : Bool
deriving DecidableEq, Repr

/-- The constraints of rules R8 to R15; a configuration that breaks one is refused as a whole (R16). -/
abbrev Config.Admitted (c : Config) : Prop :=
  (1 ≤ c.pageSize ∧ 128 % c.pageSize = 0) ∧
  (c.appStart % c.pageSize = 0 ∧ c.appStart + 128 ≤ c.flashSize) ∧
  c.flashSize ≤ 2 ^ c.addrBits ∧
  c.flagAddr < c.eepromSize ∧
  c.programmedMarker ≠ 0xFF#8 ∧
  (c.readyProbe = 0x15#8 ∨ c.readyProbe = 0x43#8) ∧
  1 ≤ c.handshakePolls

/-- The example configuration EX (95_test_vectors.md section 0, decision D39). DESIGN CHOICE, log entry 2. -/
def Config.ex : Config where
  pageSize := 64
  appStart := 0x0200
  flashSize := 0x8000
  addrBits := 16
  eepromSize := 256
  flagAddr := 0
  programmedMarker := 0x00
  readyProbe := 0x43
  handshakePolls := 3
  ctrlActive := false

/-- Fixed constants (R7). -/
def blockLen : Nat := 128
/-- `SOH`, the start-of-block marker (R7, R111). -/
def SOH : Byte := 0x01
/-- `EOT`, the end-of-transmission marker (R7, R111). -/
def EOT : Byte := 0x04
/-- `ACK`, the positive acknowledgement (R7, R112). -/
def ACK : Byte := 0x06
/-- `NAK`, the negative acknowledgement (R7, R112). -/
def NAK : Byte := 0x15
/-- `ERASED`, the erased value of the Persisted Flag (R7, R76). -/
def ERASED : Byte := 0xFF

/-- The free draws of a device reset (R290): whether the byte held in `TXH` still reaches the wire, and what a
commit in progress leaves (R83). A position that `cut` does not reach keeps its content (log entry 25). -/
structure ResetDraw where
  txDelivered : Bool
  cut : List Byte
deriving DecidableEq, Repr, Inhabited

/-- One step of one agent, with the draws it makes (R22, R267). -/
inductive Event where
  /-- `BLOCK` takes a step of the command in progress (R45). -/
  | block
  /-- `HOST` takes the next step of its program (R250). `ctrl` is the draw of the control input, should the
  statement read it (R230), and `r` the draws of a device reset, should the statement be one. -/
  | host (ctrl : Bool) (r : ResetDraw)
  /-- `HOST` issues a command word of its own choice (R105, R249). -/
  | issue (w : Word)
  /-- `HOST` reads register `n` of the register view (R50). -/
  | hostRead (n : Nat)
  /-- The application takes a step of its re-entry request (R246). -/
  | app (r : ResetDraw)
  /-- `LINE`: a start condition with no complete byte (R137). -/
  | rxEdge
  /-- `LINE`: a byte has fully arrived (R137). -/
  | rxByte (b : Byte)
  /-- `LINE`: the byte in `TXH` goes on the wire (R138). -/
  | txDrain
  /-- `NVM` completes the pending commit (R80). `draw` is what the oracle leaves; a position it does not reach is
  nominal, so `[]` is the nominal oracle of R81 (log entry 25). -/
  | nvm (draw : List Byte)
  /-- `ENV` resets the device (R291). -/
  | reset (r : ResetDraw)
deriving DecidableEq, Repr, Inhabited

/-- The agents' choice number `n` once `State.script` has run out: free, any event (R267, U14, U17). -/
opaque Config.freeEvent : Nat → Event

/-- What the host finds in `RES` where nothing wrote it since the reset: free, any word (R55, U6; log entry 31). -/
opaque Config.unwrittenRes : Word

/-- The byte of `FLASH` at an address when the run is powered up: free (R84, U12). -/
opaque Config.powerUpFlash : Nat → Byte

/-- The byte of `EE` at an address when the run is powered up: free (R84, U12). -/
opaque Config.powerUpEE : Nat → Byte

end Sys2Proof
end

