-- ==== Sys2Proof/Syntax.lean ====
section
/-! DEFINITION. The instructions, one constructor per row of spec/opcode_table.json, and the host statements of
48_host_software.md rule R250. -/

namespace Sys2Proof

/-- The eight commands of 30_encoding.md rule R101 and the three kinds of wire header byte of rule R111. -/
inductive Instr where
  /-- TX.SEND: send the byte `imm8` (R131). -/
  | txSend (imm8 : Byte)
  /-- RX.RECV: receive one byte (R132). -/
  | rxRecv
  /-- ACT.ARM: arm the activity latch (R133). -/
  | actArm
  /-- ACT.PROBE: probe for activity (R134). -/
  | actProbe
  /-- CRC.CALC: the CRC of the Payload Block (R153). -/
  | crcCalc
  /-- PKT.RECV: receive one packet (R166). -/
  | pktRecv
  /-- NVM.WRBLK: write the Payload Block at the cursor and verify it (R200). -/
  | nvmWrblk
  /-- NVM.FLAG: persist the programmed marker (R210). -/
  | nvmFlag
  /-- WIRE.SOH: the start-of-block marker in WAIT_HEADER (R169). -/
  | wireSoh
  /-- WIRE.EOT: the end-of-transmission marker in WAIT_HEADER (R168). -/
  | wireEot
  /-- WIRE.NOISE: any other byte in WAIT_HEADER (R167). -/
  | wireNoise (byte : Byte)
deriving DecidableEq, Repr, Inhabited

/-- The two encodings of 30_encoding.md: command words from the host, header bytes from the line. -/
inductive Space where
  | command
  | wire
deriving DecidableEq, Repr, Inhabited

/-- Which of the two encodings an instruction belongs to. -/
def Instr.space : Instr → Space
  | .txSend _ | .rxRecv | .actArm | .actProbe | .crcCalc | .pktRecv | .nvmWrblk | .nvmFlag => .command
  | .wireSoh | .wireEot | .wireNoise _ => .wire

/-- A statement of the host's program (R250). Labels are positions in the program, so `label:` itself leaves no
statement (Machine/Assembler.lean resolves the names). -/
inductive HostStmt where
  /-- A command line: issue the word `w` (R105, R106). -/
  | command (w : Word)
  /-- `ENTRY`: the Entry Decision (R241). -/
  | entry
  /-- `JEQ RES, imm, label`. -/
  | jeqRes (imm : Word) (target : Nat)
  /-- `JMP label`. -/
  | jmp (target : Nat)
  /-- `POLL n, label`. -/
  | poll (n : Nat) (target : Nat)
  /-- `LED.TOGGLE`. -/
  | ledToggle
  /-- `LED.ON`. -/
  | ledOn
  /-- `WAIT.CTRL`. -/
  | waitCtrl
  /-- `RESET`. -/
  | reset
  /-- `JMP.APP`. -/
  | jmpApp
deriving DecidableEq, Repr, Inhabited

end Sys2Proof
end

