-- ==== Sys2Proof/Machine/HostProgram.lean ====
section
/-! DEFINITION. The reference host program of 48_host_software.md rule R251, its labels resolved to positions
(Machine/Assembler.lean assembles the spec's own text to the same list). -/

namespace Sys2Proof.Machine

/-- The reference host program (R251), for the configuration's `READY_PROBE` and `HANDSHAKE_POLLS`. -/
def referenceProgram (c : Config) : List HostStmt :=
  [ .entry,                          -- 0  BOOT    R241
    .command 0x0300,                 -- 1  INIT    ACT.ARM, R231
    .ledToggle,                      -- 2  HS      R232
    .command (0x01#8 ++ c.readyProbe), -- 3        SEND.PROBE
    .poll c.handshakePolls 6,        -- 4          POLL HANDSHAKE_POLLS, ACTIVE
    .jmp 2,                          -- 5          JMP HS
    .ledOn,                          -- 6  ACTIVE  R234
    .command 0x2000,                 -- 7  LOOP    PKT.RECV
    .jeqRes 0x0002 15,               -- 8          JEQ RES, 0x0002, END
    .command 0x3000,                 -- 9          NVM.WRBLK
    .jeqRes 0x0001 13,               -- 10         JEQ RES, 0x0001, GOOD
    .command 0x0115,                 -- 11         SEND.NAK
    .jmp 7,                          -- 12         JMP LOOP
    .command 0x0106,                 -- 13 GOOD    SEND.ACK
    .jmp 7,                          -- 14         JMP LOOP
    .command 0x0106,                 -- 15 END     SEND.ACK, R235
    .command 0x3100,                 -- 16 DONE    NVM.FLAG, R236
    .waitCtrl,                       -- 17
    .reset ]                         -- 18

end Sys2Proof.Machine
end

