-- ==== Sys2Proof/Machine/Memory.lean ====
section
/-! DEFINITION. A byte memory as plain data: the bytes written in this run, addresses strictly rising. A byte that
is not listed was never written; State gives it its power-up draw (20_memory.md rules R70, R75, R84; log entry 7). -/

namespace Sys2Proof.Machine

/-- The bytes written in this run, by address. -/
abbrev Memory := List Host.Cell

/-- The canonical form: addresses strictly rising. (An unlisted address reads as no byte, which no entry can be
equal to, so this is the whole form.) -/
abbrev Memory.wf (m : Memory) : Prop := m.Pairwise fun x y => x.1 < y.1

/-- The byte written at `a` in this run, if any (R86: no side effect). -/
def Memory.read (m : Memory) (a : Nat) : Option Byte :=
  match m with
  | [] => none
  | (k, v) :: rest => if k = a then some v else if a < k then none else Memory.read rest a

/-- Write one byte at `a`, keeping the canonical form. -/
def Memory.write (m : Memory) (a : Nat) (b : Byte) : Memory :=
  match m with
  | [] => [(a, b)]
  | (k, v) :: rest =>
    if a < k then (a, b) :: (k, v) :: rest
    else if k = a then (a, b) :: rest
    else (k, v) :: Memory.write rest a b

/-- `MemWrite(S, a, n, v)` (00_scope.md rule R20): the bytes at `a`, `a + 1`, … in order. -/
def Memory.writeBytes (m : Memory) (a : Nat) : List Byte → Memory
  | [] => m
  | b :: rest => Memory.writeBytes (m.write a b) (a + 1) rest

end Sys2Proof.Machine
end

