-- ==== Sys2Proof/Machine/State.lean ====
section
/-! DEFINITION. The architectural state (10_state.md), the host's state (48_host_software.md rule R230), the reasons
a step can stop, and the state after power-up. Plain data throughout. -/

namespace Sys2Proof.Machine

/-- The framer's sequencer (R36). Codes 9 to 15 are reserved and never entered, so they have no constructor. -/
inductive Fsm where
  | idle | waitHeader | readBlk | readBlkc | readPayload | readCrcHi | readCrcLo | validate | sendNak
deriving DecidableEq, Repr, Inhabited

/-- The writer's sequencer (R46). -/
inductive Wseq where
  | idle | stage | commit | verify | flag
deriving DecidableEq, Repr, Inhabited

/-- What `FAULT` records (R49, R260); codes 4 to 255 are never raised, so they have no constructor. -/
inductive FaultCode where
  | none | illegalCmd | pbInvalid | cursorRange
deriving DecidableEq, Repr, Inhabited

/-- What a fault records beside its code (R260, column "recorded"). -/
inductive FaultRecord where
  | none
  /-- ILLEGAL_CMD, and PB_INVALID of a command: the command word. -/
  | word (w : Word)
  /-- PB_INVALID of a host read: the register number. -/
  | register (n : Nat)
  /-- CURSOR_RANGE: the command word and `CURSOR`. -/
  | wordCursor (w : Word) (cursor : Nat)
deriving DecidableEq, Repr, Inhabited

/-- The commit `NVM` will perform (R47). -/
inductive Commit where
  /-- `(FLASH, page address, page data)`. -/
  | flash (page : Nat) (data : List Byte)
  /-- `(EE, byte address, byte)`. -/
  | ee (addr : Nat) (value : Byte)
deriving DecidableEq, Repr, Inhabited

/-- `LED` (R230). -/
inductive Led where
  | off | on
deriving DecidableEq, Repr, Inhabited

/-- `MODE` (R230): a phase of the host, not a privilege level (R271). -/
inductive Mode where
  | boot | update | app
deriving DecidableEq, Repr, Inhabited

/-- `HPC` (R230, R242). -/
inductive HostPc where
  /-- At statement `index` of the program; `polls` probes of the POLL at hand are issued (R250). -/
  | stmt (index polls : Nat)
  /-- Control is with the application, entered at address `entry` (R242). -/
  | app (entry : Nat)
  /-- The application's re-entry request is writing the flag and will reset (R246). -/
  | appReset
deriving DecidableEq, Repr, Inhabited

/-- The whole state: the block's registers and memories (R30), the host's state (R230), and the model's own fields. -/
structure State where
  /-- The configuration (R7 to R15). The model's own field: no step changes it (R30, log entry 1). -/
  cfg : Config
  /-- The host's program (R250). The model's own field: no step changes it (R57, log entry 17). -/
  prog : List HostStmt
  /-- The agents' choices still to come, oldest first. The model's own field (R267, log entry 3). -/
  script : List Event
  /-- How many choices were drawn freely since `script` ran out. The model's own field (log entry 3). -/
  tick : Nat
  /-- `RXQ` (R31). -/
  rxq : List Byte
  /-- `TXH` (R32): `none` is empty. -/
  txh : Option Byte
  /-- `TXLOG` (R33), oldest first. -/
  txlog : List Byte
  /-- `ARMED` (R34). -/
  armed : Bool
  /-- `ACT` (R34). -/
  act : Bool
  /-- `CRCREG` (R35). -/
  crcreg : Word
  /-- `FSM` (R36). -/
  fsm : Fsm
  /-- `BLK` (R37). -/
  blk : Byte
  /-- `BLKC` (R37). -/
  blkc : Byte
  /-- `CRCRX` (R38). -/
  crcrx : Word
  /-- `IDX` (R39). -/
  idx : Nat
  /-- `PB[0..127]` (R40). -/
  pb : Vector Byte 128
  /-- `PBV` (R40). -/
  pbv : Bool
  /-- `CURSOR` (R41). -/
  cursor : Nat
  /-- `ACC` (R42). -/
  acc : Nat
  /-- `PGBUF[0..PAGE_SIZE-1]` (R43). -/
  pgbuf : List Byte
  /-- `PADDR` (R43). -/
  paddr : Nat
  /-- `VFY` (R44). -/
  vfy : Bool
  /-- `CMD` (R45), as the command word in progress; `BUSY` is `CMD ≠ none`. -/
  cmd : Option Word
  /-- `WSEQ` (R46). -/
  wseq : Wseq
  /-- `WIDX` (R46). -/
  widx : Nat
  /-- `NVMBUSY` (R47). -/
  nvmBusy : Bool
  /-- `pending_commit` (R47). -/
  pending : Option Commit
  /-- `RES` (R48). -/
  res : Word
  /-- `FAULT` (R49). -/
  fault : FaultCode
  /-- The fault record (R260). -/
  faultRec : FaultRecord
  /-- `FLASH` (R70): the bytes written in this run. -/
  flash : Memory
  /-- `EE` (R75): the bytes written in this run. -/
  ee : Memory
  /-- `HPC` (R230). -/
  hpc : HostPc
  /-- `LED` (R230). -/
  led : Led
  /-- `PULLUP` (R230). -/
  pullup : Bool
  /-- `MODE` (R230). -/
  mode : Mode
  /-- `RES` was written since reset (R55, log entry 6). -/
  resW : Bool
  /-- `BLK` was written since reset (R55, log entry 6). -/
  blkW : Bool
  /-- `BLKC` was written since reset (R55, log entry 6). -/
  blkcW : Bool
  /-- `CRCRX` was written since reset (R55, log entry 6). -/
  crcrxW : Bool
  /-- HOST issued a command since reset (R90, R240, log entry 20). The model's own field. -/
  issued : Bool
deriving DecidableEq, Repr

/-- Why the machine stops. -/
inductive Fault where
  /-- Raised by `step` in a state whose `FAULT` is set, for every step but a read of the register view: the model
  follows no run past a fault (R262, R263, U19). Safe. -/
  | stopped (code : FaultCode)
  /-- Raised by `NVM.WRBLK`'s verify and by a page commit at an address outside `0 .. FLASH_SIZE-1`, which does not
  exist (R70). No reachable state does it (R200, R56). Safe. -/
  | flashRange (addr : Nat)
  /-- Raised by a flag write, or the Entry Decision's read, at an address outside `0 .. EEPROM_SIZE-1`, which does
  not exist (R75). No admitted configuration does it (R11). Safe. -/
  | eeRange (addr : Nat)
  /-- Raised where `PB[i]` is needed for an `i` above 127, which does not exist (R40). No reachable state does it
  (R171, R201). Safe. -/
  | blockIndex (i : Nat)
  /-- Raised by NVM.WRBLK where `WSEQ` is W_FLAG, and by NVM.FLAG where it is W_STAGE, W_COMMIT or W_VERIFY: the rules
  give the command no step there, and no reachable state is there (R45, R46; log entry 22). Safe. -/
  | sequencer (w : Wseq)
deriving DecidableEq, Repr

/-- Why a step is refused. -/
inductive Refusal where
  /-- Raised by `exec` for an instruction that has no meaning yet; none is left. Safe. -/
  | notModelled (mnemonic : String)
  /-- Raised by `step` for a configuration that breaks a constraint of rules R8 to R15 (R16, U16). Safe. -/
  | badConfig
  /-- Raised by a host read of a reserved register number (R52, U2). Safe. -/
  | reservedRegister (n : Nat)
  /-- Raised by a host read of `RES`, `BLK`, `BLKC` or `CRCRX` before anything wrote it since reset, which the spec
  refuses: "host read refused until the first packet sets them" (R55), "the other reads before a write are refused" (U6),
  "a host read of them before that is refused" (D19). No instruction and no statement of the host meets it. Safe. -/
  | unwrittenRegister (n : Nat)
  /-- Raised by a command issued from the application (R242, U20). Safe. -/
  | issuedFromApplication (w : Word)
  /-- Raised by `ENTRY` or `JMP.APP` where it would pass control to APP_START with no reset before it: MODE is not
  BOOT, or a command was issued since the reset (R90, R240, U20; log entry 20). Safe. -/
  | jumpWithoutReset
deriving DecidableEq, Repr

/-- The state at power-up (R293, R55, R230) of a device with configuration `c` and host program `prog`. The registers
R55 leaves unspecified hold 0 (DESIGN CHOICE, log entry 5); their written marks are off, so no read shows it. -/
def State.powerUp (c : Config) (prog : List HostStmt) : State where
  cfg := c
  prog := prog
  script := []
  tick := 0
  rxq := []
  txh := none
  txlog := []
  armed := false
  act := false
  crcreg := 0
  fsm := .idle
  blk := 0
  blkc := 0
  crcrx := 0
  idx := 0
  pb := Vector.replicate 128 0
  pbv := false
  cursor := c.appStart
  acc := 0
  pgbuf := List.replicate c.pageSize 0xFF
  paddr := 0
  vfy := false
  cmd := none
  wseq := .idle
  widx := 0
  nvmBusy := false
  pending := none
  res := 0
  fault := .none
  faultRec := .none
  flash := []
  ee := []
  hpc := .stmt 0 0
  led := .off
  pullup := false
  mode := .boot
  resW := false
  blkW := false
  blkcW := false
  crcrxW := false
  issued := false

/-- The machine right after reset: power-up of the example configuration with the reference host program
(R293; DESIGN CHOICE, log entries 2 and 17). -/
def State.reset : State := State.powerUp Config.ex (referenceProgram Config.ex)

end Sys2Proof.Machine
end

