-- ==== Sys2Proof/Machine/Operands.lean ====
section
/-! DEFINITION. The operands a command takes (30_encoding.md rule R102): IMM8 is in the word (Decode.lean); the
block is `PB`, the address is `CURSOR`. -/

namespace Sys2Proof.Machine

/-- `PB[i]`; there is none for an `i` above 127 (R40). -/
def payloadByte (i : Nat) (s : State) : Option Byte := s.pb[i]?

/-- The program-memory address of payload byte `i` (R78, R201). -/
def stageAddr (i : Nat) (s : State) : Nat := s.cursor + i

/-- The slot of the page buffer an address is staged in (R43). -/
def pageSlot (a : Nat) (s : State) : Nat := a % s.cfg.pageSize

/-- The page an address belongs to (R43, R73). -/
def pageBase (a : Nat) (s : State) : Nat := a - a % s.cfg.pageSize

/-- The 128 bytes from `CURSOR` on lie in program memory (R200, R70). -/
abbrev cursorFits (s : State) : Prop := s.cursor + blockLen ≤ s.cfg.flashSize

end Sys2Proof.Machine
end

