-- ==== Sys2Proof/Machine/Ops.lean ====
section
/-! DEFINITION. The named operations the meanings are built from: raising a fault, ending a command, receiving and
sending a byte, the memories, starting a commit, and the device reset. -/

namespace Sys2Proof.Machine

/-- What one step answers. -/
abbrev Out := Host.Outcome State Fault Refusal

/-- `raise Fault(code)` (60_exceptions.md rule R262): `FAULT` and the record are set and nothing else changes; `CMD`
keeps the faulting command. There is no handler, no saved state and no return (R269). -/
def raiseFault (code : FaultCode) (record : FaultRecord) (s : State) : State :=
  { s with fault := code, faultRec := record }

/-- A command ends with `CMD <- none` (R45, R105). -/
def endCmd (s : State) : State := { s with cmd := none }

/-- `RES <- v` (R48). -/
def setRes (v : Word) (s : State) : State := { s with res := v, resW := true }

/-- `RecvByte()` (R132): the byte at the front of `RXQ`, removed; `none` while the hold `RXQ ≠ []` is not met. -/
def recvByte (s : State) : Option (Byte × State) :=
  match s.rxq with
  | [] => none
  | b :: rest => some (b, { s with rxq := rest })

/-- `SendByte(b)` (R131): `TXH <- b`; `none` while the hold `TXH = empty` is not met. -/
def sendByte (b : Byte) (s : State) : Option State :=
  match s.txh with
  | none => some { s with txh := some b }
  | some _ => none

/-- Take the byte `b` from the front of `RXQ` and go on with `k`; where `b` is not at the front it has not arrived,
and the state is as it was. -/
def takeByte (b : Byte) (k : State → Out) (s : State) : Out :=
  match s.rxq with
  | [] => .next s
  | x :: rest => if x = b then k { s with rxq := rest } else .next s

/-- The byte of `FLASH` at `a` (R70, R87): what the last completed commit left, else the power-up draw (R84). -/
def flashByte (a : Nat) (s : State) : Byte := (s.flash.read a).getD (Config.powerUpFlash a)

/-- The byte of `EE` at `a` (R75), in the same way. -/
def eeByte (a : Nat) (s : State) : Byte := (s.ee.read a).getD (Config.powerUpEE a)

/-- Start a commit (R79, R210): `pending_commit` is set and `NVMBUSY` becomes 1. -/
def startCommit (c : Commit) (s : State) : State := { s with pending := some c, nvmBusy := true }

/-- The page buffer after a commit and at reset: every byte 0xFF (R80, R55). -/
def blankPage (c : Config) : List Byte := List.replicate c.pageSize 0xFF

/-- The bytes an oracle draw leaves where the data `buf` were committed (R81): the drawn bytes, and nominal from
where the draw ends, so that `[]` is the nominal oracle and a draw of the page's length is any bytes. -/
def oracleBytes (draw buf : List Byte) : List Byte := draw.take buf.length ++ buf.drop draw.length

/-- `TXLOG` after a device reset (R290): the byte `TXH` held is delivered or lost. -/
def resetTxlog (r : ResetDraw) (s : State) : List Byte :=
  match s.txh with
  | none => s.txlog
  | some b => if r.txDelivered then s.txlog ++ [b] else s.txlog

/-- `FLASH` after a device reset (R83, R84): a page whose commit the reset cuts holds any bytes, the rest is kept. -/
def resetFlash (r : ResetDraw) (s : State) : Memory :=
  match s.nvmBusy, s.pending with
  | true, some (.flash page data) => s.flash.writeBytes page (r.cut.take data.length)
  | _, _ => s.flash

/-- `EE` after a device reset (R83, R84): a flag byte whose write the reset cuts holds any value, the rest is kept. -/
def resetEE (r : ResetDraw) (s : State) : Memory :=
  match s.nvmBusy, s.pending with
  | true, some (.ee addr _) => s.ee.writeBytes addr (r.cut.take 1)
  | _, _ => s.ee

/-- `DeviceReset()` (70_reset_and_hazards.md rule R290). The model's own fields stay. -/
def deviceReset (r : ResetDraw) (s : State) : State :=
  { State.powerUp s.cfg s.prog with
    script := s.script
    tick := s.tick
    txlog := resetTxlog r s
    flash := resetFlash r s
    ee := resetEE r s }

end Sys2Proof.Machine
end

