-- ==== Sys2Proof/Machine/Agents.lean ====
section
/-! DEFINITION. The steps of LINE (40_transport.md rules R137, R138), NVM (20_memory.md rules R80, R81) and the
application's re-entry request (48_host_software.md rule R246). A step that is not enabled leaves the state as it is. -/

namespace Sys2Proof.Machine

/-- `if ARMED = 1 then ACT <- 1` (R137). -/
def latchEdge (s : State) : State := { s with act := s.act || s.armed }

/-- `RxEdge()` (R137). -/
def rxEdge (s : State) : State := latchEdge s

/-- `RxByte(b)` (R137). -/
def rxByte (b : Byte) (s : State) : State :=
  let t := latchEdge s
  { t with rxq := t.rxq ++ [b] }

/-- `TxDrain()` (R138), enabled while `TXH ≠ empty`. -/
def txDrain (s : State) : State :=
  match s.txh with
  | none => s
  | some b => { s with txlog := s.txlog ++ [b], txh := none }

/-- The end of `NvmComplete()` (R80). -/
def commitDone (s : State) : State := { s with pending := none, nvmBusy := false }

/-- `NvmComplete()` (R80), enabled while `NVMBUSY = 1`, with the oracle's draw (R81). -/
def nvmComplete (draw : List Byte) (s : State) : Out :=
  match s.nvmBusy, s.pending with
  | true, some (.flash page buf) =>
    if page + buf.length ≤ s.cfg.flashSize then
      .next (commitDone { s with
        flash := s.flash.writeBytes page (oracleBytes draw buf)
        pgbuf := blankPage s.cfg })
    else .fault (.flashRange (max page s.cfg.flashSize))
  | true, some (.ee addr v) =>
    if addr < s.cfg.eepromSize then
      .next (commitDone { s with ee := s.ee.writeBytes addr (oracleBytes draw [v]) })
    else .fault (.eeRange addr)
  | _, _ => .next s

/-- `AppRequestUpdate` (R246): the application writes 0xFF to the Persisted Flag through `NVM`, holds until the write
is complete, and resets the device. -/
def appStep (r : ResetDraw) (s : State) : State :=
  match s.hpc with
  | .stmt _ _ => s
  | .app _ =>
    if s.nvmBusy then s
    else startCommit (.ee s.cfg.flagAddr ERASED) { s with hpc := .appReset }
  | .appReset => if s.nvmBusy then s else deviceReset r s

end Sys2Proof.Machine
end

