-- ==== Sys2Proof/WellFormed.lean ====
section
/-! DEFINITION. Which terms of `Instr` name an instruction. -/

namespace Sys2Proof

/-- WIRE.NOISE is a byte other than the two markers (R111, R114; the row of lowest priority in the opcode table).
Every other term is an instruction: IMM8 of TX.SEND may be any byte (R131). -/
abbrev Instr.WellFormed : Instr → Prop
  | .wireNoise b => b ≠ SOH ∧ b ≠ EOT
  | .txSend _ | .rxRecv | .actArm | .actProbe | .crcCalc | .pktRecv | .nvmWrblk | .nvmFlag
  | .wireSoh | .wireEot => True

end Sys2Proof
end

