-- ==== Sys2Proof/Decode.lean ====
section
/-! DEFINITION. Decoding and encoding of command words and wire header bytes (30_encoding.md rules R100 to R103,
R108, R111, R114). -/

namespace Sys2Proof

/-- Why bits are no instruction. -/
inductive DecodeReject where
  /-- The OP is not in the table of rule R101. -/
  | unknownOp (op : Byte)
  /-- The OP's row requires `IMM8 = 0` and it is not (R103). -/
  | nonzeroImm (op imm : Byte)
  /-- Fewer bytes than one instruction of the space has. -/
  | truncated
deriving DecidableEq, Repr

/-- The field OP, bits 15:8 (R100). -/
def opOf (w : Word) : Byte := w.extractLsb' 8 8

/-- The field IMM8, bits 7:0 (R100, R102). -/
def immOf (w : Word) : Byte := w.extractLsb' 0 8

/-- A row of rule R101. -/
structure CmdRow where
  pattern : Word
  mask : Word
  build : Byte → Instr

/-- The opcode map of rule R101. -/
def cmdTable : List CmdRow :=
  [ ⟨0x0100, 0xFF00, fun imm => .txSend imm⟩,
    ⟨0x0200, 0xFFFF, fun _ => .rxRecv⟩,
    ⟨0x0300, 0xFFFF, fun _ => .actArm⟩,
    ⟨0x0400, 0xFFFF, fun _ => .actProbe⟩,
    ⟨0x1000, 0xFFFF, fun _ => .crcCalc⟩,
    ⟨0x2000, 0xFFFF, fun _ => .pktRecv⟩,
    ⟨0x3000, 0xFFFF, fun _ => .nvmWrblk⟩,
    ⟨0x3100, 0xFFFF, fun _ => .nvmFlag⟩ ]

/-- The word selects the row: `w & mask = match` (R101). -/
def CmdRow.hits (r : CmdRow) (w : Word) : Bool := (w &&& r.mask) == r.pattern

/-- Decode a command word (R101, R103): total, rejecting by name. -/
def decodeCmd (w : Word) : Except DecodeReject Instr :=
  match cmdTable.find? (fun r => r.hits w) with
  | some r => .ok (r.build (immOf w))
  | none =>
    if (cmdTable.any fun r => opOf r.pattern == opOf w) then .error (.nonzeroImm (opOf w) (immOf w))
    else .error (.unknownOp (opOf w))

/-- Decode a header byte (R111, R114): the two markers, and every other byte as noise. -/
def decodeWire (b : Byte) : Instr :=
  if b = SOH then .wireSoh else if b = EOT then .wireEot else .wireNoise b

/-- Decode the first instruction of a byte sequence and give the rest. A command word is two bytes, the OP byte
first (R100); a header is one byte (R110). -/
def decode : Space → List Byte → Except DecodeReject (Instr × List Byte)
  | .command, op :: imm :: rest => (decodeCmd (op ++ imm)).map fun i => (i, rest)
  | .command, _ => .error .truncated
  | .wire, b :: rest => .ok (decodeWire b, rest)
  | .wire, [] => .error .truncated

/-- The bits the opcode table gives an instruction's row. -/
def Instr.nbits (i : Instr) : Nat :=
  match i.space with
  | .command => 16
  | .wire => 8

/-- The instruction's bits as the opcode table numbers them: the command word, or the header byte. -/
def tableWord : Instr → Word
  | .txSend imm => 0x01#8 ++ imm
  | .rxRecv => 0x0200
  | .actArm => 0x0300
  | .actProbe => 0x0400
  | .crcCalc => 0x1000
  | .pktRecv => 0x2000
  | .nvmWrblk => 0x3000
  | .nvmFlag => 0x3100
  | .wireSoh => SOH.setWidth 16
  | .wireEot => EOT.setWidth 16
  | .wireNoise b => b.setWidth 16

/-- The instruction's bytes in order: OP then IMM8 for a command (R100), the byte itself for a header (R110). -/
def encode (i : Instr) : List Byte :=
  match i.space with
  | .command => [opOf (tableWord i), immOf (tableWord i)]
  | .wire => [immOf (tableWord i)]

/-- What the decoder reads from an instruction whose bits are `w`, numbered as spec/opcode_table.json numbers them:
a row of at most 8 bits is a header byte, any other a command word, whose OP byte comes first (R100). -/
def decodeTableWord (nbits w : Nat) : Option Instr :=
  let bits : Word := BitVec.ofNat 16 w
  let r := if nbits ≤ 8 then decode .wire [immOf bits] else decode .command [opOf bits, immOf bits]
  match r with
  | .ok (i, _) => some i
  | .error _ => none

end Sys2Proof
end

