-- ==== Sys2Proof/Machine/Crc.lean ====
section
/-! DEFINITION. The Checksum Engine's function (41_checksum.md rule R150). -/

namespace Sys2Proof.Machine

/-- `POLY` (00_scope.md rule R7). -/
def crcPoly : Word := 0x1021

/-- `CRC_INIT` (R7). -/
def crcInit : Word := 0x0000

/-- One round: test the top bit, shift left by one, and if the tested bit was set XOR with the polynomial (R150). -/
def crcRound (r : Word) : Word :=
  if r.msb then (r <<< 1) ^^^ crcPoly else r <<< 1

/-- One byte: XOR it into the high byte, then 8 rounds (R150). -/
def crcByte (r : Word) (d : Byte) : Word :=
  Nat.repeat crcRound 8 (r ^^^ (d ++ 0x00#8))

/-- The register after the bytes `ds`, in order, from `r` (R150). -/
def crcFrom (r : Word) (ds : List Byte) : Word := ds.foldl crcByte r

/-- `crc16(d[0..127])` (R150, R152). -/
def crc16 (d : Vector Byte 128) : Word := crcFrom crcInit d.toList

end Sys2Proof.Machine
end

