-- ==== Sys2Proof/Machine/Checksum.lean ====
section
/-! DEFINITION. The Checksum Engine's command (41_checksum.md rule R153). -/

namespace Sys2Proof.Machine

/-- The engine run over the Payload Block: `CRCREG` holds the result (R150, R152). -/
def runCrc (s : State) : State := { s with crcreg := crc16 s.pb }

/-- CRC.CALC (R153). -/
def execCrcCalc (s : State) : Out :=
  if s.pbv then .next (endCmd (setRes (crc16 s.pb) (runCrc s)))
  else .next (raiseFault .pbInvalid (.word (tableWord .crcCalc)) s)

end Sys2Proof.Machine
end

