-- ==== Sys2Proof/Machine/Framer.lean ====
section
/-! DEFINITION. The Packet Receiver (42_framer.md): PKT.RECV and the three kinds of header byte. -/

namespace Sys2Proof.Machine

/-- `RES` of PKT.RECV for an accepted packet (R104). -/
def resBlock : Word := 0x0001

/-- `RES` of PKT.RECV for end of transmission (R104). -/
def resEot : Word := 0x0002

/-- Start of block (R169), the marker already taken. -/
def startOfBlock (s : State) : State := { s with fsm := .readBlk }

/-- End of transmission (R168), the marker already taken. -/
def endOfTransmission (s : State) : State := endCmd (setRes resEot { s with fsm := .idle })

/-- READ_PAYLOAD on the byte `b`, already taken (R171). -/
def storePayload (b : Byte) (s : State) : Out :=
  if s.idx < 128 then
    .next { s with
      pb := s.pb.setIfInBounds s.idx b
      idx := s.idx + 1
      fsm := if s.idx + 1 = 128 then .readCrcHi else .readPayload }
  else .fault (.blockIndex s.idx)

/-- Inside a packet every byte is data (R114): the reading state `FSM` holds, on the byte `b`, already taken
(R170 to R172). -/
def packetByte (b : Byte) (s : State) : Out :=
  match s.fsm with
  | .readBlk => .next { s with blk := b, blkW := true, fsm := .readBlkc }
  | .readBlkc => .next { s with blkc := b, blkcW := true, idx := 0, fsm := .readPayload }
  | .readPayload => storePayload b s
  | .readCrcHi => .next { s with crcrx := b ++ 0x00#8, crcrxW := true, fsm := .readCrcLo }
  | .readCrcLo =>
    .next { s with crcrx := s.crcrx.extractLsb' 8 8 ++ b, crcrxW := true, fsm := .validate }
  | .idle | .waitHeader | .validate | .sendNak => .next s

/-- The block-number check of VALIDATE (R173): a sum of natural numbers. -/
def blkOk (s : State) : Bool := s.blk.toNat + s.blkc.toNat == 255

/-- The checksum check of VALIDATE (R173). -/
def crcOk (s : State) : Bool := crc16 s.pb == s.crcrx

/-- Accept (R174). -/
def accept (s : State) : State := endCmd (setRes resBlock { s with pbv := true, fsm := .idle })

/-- VALIDATE (R173): accept, or go to SEND_NAK (R175). The engine computes either way. -/
def validateStep (s : State) : State :=
  if crcOk s && blkOk s then accept (runCrc s) else { runCrc s with fsm := .sendNak }

/-- SEND_NAK (R175): holds until `TXH` is empty. -/
def sendNakStep (s : State) : State :=
  match sendByte NAK s with
  | none => s
  | some t => { t with fsm := .waitHeader }

/-- A byte that arrives as `b` where the framer is not in WAIT_HEADER: data in a reading state (R114); in the other
states the framer takes no byte and it stays queued (R181). -/
def wireData (b : Byte) (s : State) : Out :=
  match s.fsm with
  | .readBlk | .readBlkc | .readPayload | .readCrcHi | .readCrcLo => takeByte b (packetByte b) s
  | .idle | .waitHeader | .validate | .sendNak => .next s

/-- WIRE.SOH (R169): in WAIT_HEADER, start of block; inside a packet 0x01 is data (R114). -/
def execWireSoh (s : State) : Out :=
  if s.fsm = .waitHeader then takeByte SOH (fun t => .next (startOfBlock t)) s else wireData SOH s

/-- WIRE.EOT (R168): in WAIT_HEADER, end of transmission; inside a packet 0x04 is data (R114). -/
def execWireEot (s : State) : Out :=
  if s.fsm = .waitHeader then takeByte EOT (fun t => .next (endOfTransmission t)) s else wireData EOT s

/-- WIRE.NOISE (R167): in WAIT_HEADER the byte is discarded; inside a packet it is data (R114). -/
def execWireNoise (b : Byte) (s : State) : Out :=
  if s.fsm = .waitHeader then takeByte b (fun t => .next { t with fsm := .waitHeader }) s else wireData b s

/-- WAIT_HEADER (R167): holds until a byte is there, then does what its kind says. -/
def waitHeaderStep (s : State) : Out :=
  match s.rxq with
  | [] => .next s
  | b :: _ =>
    if b = SOH then execWireSoh s
    else if b = EOT then execWireEot s
    else execWireNoise b s

/-- A reading state (R170 to R172): holds until a byte is there, then takes it. -/
def readStep (s : State) : Out :=
  match recvByte s with
  | none => .next s
  | some (b, t) => packetByte b t

/-- PKT.RECV (R166): the first step, then the step of the state `FSM` holds (R167 to R175). -/
def execPktRecv (s : State) : Out :=
  match s.fsm with
  | .idle => .next { s with pbv := false, idx := 0, fsm := .waitHeader }
  | .waitHeader => waitHeaderStep s
  | .readBlk | .readBlkc | .readPayload | .readCrcHi | .readCrcLo => readStep s
  | .validate => .next (validateStep s)
  | .sendNak => .next (sendNakStep s)

end Sys2Proof.Machine
end

