-- ==== Sys2Proof/Machine/Transport.lean ====
section
/-! DEFINITION. The Byte Transport's commands (40_transport.md). A hold that is not met leaves the state as it is
(00_scope.md rule R21, log entry 8). -/

namespace Sys2Proof.Machine

/-- TX.SEND (R131). -/
def execTxSend (imm8 : Byte) (s : State) : Out :=
  match sendByte imm8 s with
  | none => .next s
  | some t => .next (endCmd t)

/-- RX.RECV (R132). -/
def execRxRecv (s : State) : Out :=
  match recvByte s with
  | none => .next s
  | some (b, t) => .next (endCmd (setRes (b.setWidth 16) t))

/-- ACT.ARM (R133). -/
def execActArm (s : State) : Out :=
  .next (endCmd { s with armed := true, act := false })

/-- ACT.PROBE (R134). -/
def execActProbe (s : State) : Out :=
  .next (endCmd (setRes (if s.act then 0x0001 else 0x0000) s))

end Sys2Proof.Machine
end

