-- ==== Sys2Proof/Machine/Writer.lean ====
section
/-! DEFINITION. The Program-Memory Writer (43_nvm_writer.md): NVM.WRBLK and NVM.FLAG. -/

namespace Sys2Proof.Machine

/-- `RES` of NVM.WRBLK for a verified block (R104). -/
def resVerified : Word := 0x0001

/-- `RES` of NVM.WRBLK for a block that did not verify (R104). -/
def resNotVerified : Word := 0x0000

/-- W_STAGE (R201): one byte from `PB` into the page buffer. -/
def stageStep (s : State) : Out :=
  match payloadByte s.widx s with
  | none => .fault (.blockIndex s.widx)
  | some b =>
    let a := stageAddr s.widx s
    .next { s with
      pgbuf := s.pgbuf.set (pageSlot a s) b
      paddr := pageBase a s
      acc := s.acc + 1
      widx := s.widx + 1
      wseq := if s.acc + 1 = s.cfg.pageSize then .commit
              else if s.widx + 1 = 128 then .verify
              else .stage }

/-- `Commit()` up to its hold (R79). -/
def beginCommit (s : State) : State :=
  startCommit (.flash s.paddr s.pgbuf) { s with acc := 0 }

/-- W_COMMIT (R202): issue the commit, hold until `NVMBUSY = 0`, go on. `ACC` tells the two visits apart: it is
`PAGE_SIZE` before the commit is issued and 0 after (R42, R79; log entry 10). -/
def commitStep (s : State) : State :=
  if s.nvmBusy then s
  else if s.acc ≠ 0 then beginCommit s
  else { s with wseq := if s.widx = 128 then .verify else .stage }

/-- `Verify()` (R204): the 128 bytes read back at `CURSOR` are `PB`'s. -/
def verifyOk (s : State) : Bool :=
  (List.range 128).all fun i => s.pb[i]? == some (flashByte (stageAddr i s) s)

/-- `Finish(ok)` (R205). -/
def finish (ok : Bool) (s : State) : State :=
  endCmd <|
    if ok then setRes resVerified { s with vfy := true, cursor := s.cursor + blockLen, wseq := .idle }
    else setRes resNotVerified { s with vfy := false, wseq := .idle }

/-- W_VERIFY (R203). -/
def verifyStep (s : State) : Out :=
  if cursorFits s then .next (finish (verifyOk s) s) else .fault (.flashRange (max s.cursor s.cfg.flashSize))

/-- W_FLAG (R210 steps 2 and 3): hold until the write is complete, then end. -/
def flagStep (s : State) : State :=
  if s.nvmBusy then s else endCmd { s with wseq := .idle }

/-- NVM.WRBLK's first step (R200), with the priority of R265. -/
def beginWrite (s : State) : State :=
  if s.pbv then
    if cursorFits s then { s with widx := 0, wseq := .stage }
    else raiseFault .cursorRange (.wordCursor (tableWord .nvmWrblk) s.cursor) s
  else raiseFault .pbInvalid (.word (tableWord .nvmWrblk)) s

/-- NVM.WRBLK (R200): the first step, then the step of the state `WSEQ` holds (R201 to R203). W_FLAG is no state of
this command. -/
def execNvmWrblk (s : State) : Out :=
  match s.wseq with
  | .idle => .next (beginWrite s)
  | .stage => stageStep s
  | .commit => .next (commitStep s)
  | .verify => verifyStep s
  | .flag => .fault (.sequencer s.wseq)

/-- NVM.FLAG's steps 1 and 2 (R210): hold until no commit is pending, then issue the flag write. -/
def beginFlag (s : State) : State :=
  if s.nvmBusy then s
  else startCommit (.ee s.cfg.flagAddr s.cfg.programmedMarker) { s with wseq := .flag }

/-- NVM.FLAG (R210). W_STAGE, W_COMMIT and W_VERIFY are no states of this command. -/
def execNvmFlag (s : State) : Out :=
  match s.wseq with
  | .idle => .next (beginFlag s)
  | .flag => .next (flagStep s)
  | .stage | .commit | .verify => .fault (.sequencer s.wseq)

end Sys2Proof.Machine
end

