-- ==== Sys2Proof/Machine/Dispatch.lean ====
section
/-! DEFINITION. One arm per instruction. -/

namespace Sys2Proof.Machine

def exec (i : Instr) (s : State) : Host.Outcome State Fault Refusal :=
  match i with
  | .txSend imm8 => Sys2Proof.Machine.execTxSend imm8 s
  | .rxRecv => Sys2Proof.Machine.execRxRecv s
  | .actArm => Sys2Proof.Machine.execActArm s
  | .actProbe => Sys2Proof.Machine.execActProbe s
  | .crcCalc => Sys2Proof.Machine.execCrcCalc s
  | .pktRecv => Sys2Proof.Machine.execPktRecv s
  | .nvmWrblk => Sys2Proof.Machine.execNvmWrblk s
  | .nvmFlag => Sys2Proof.Machine.execNvmFlag s
  | .wireSoh => Sys2Proof.Machine.execWireSoh s
  | .wireEot => Sys2Proof.Machine.execWireEot s
  | .wireNoise byte => Sys2Proof.Machine.execWireNoise byte s

end Sys2Proof.Machine
end

