-- ==== Sys2Proof/Machine/Fetch.lean ====
section
/-! DEFINITION. What BLOCK runs next, and which agent acts next. -/

namespace Sys2Proof.Machine

/-- What BLOCK finds to run. -/
inductive Fetched where
  /-- No command is in progress (R45). -/
  | idle
  /-- An instruction. -/
  | run (i : Instr)
  /-- `CMD` holds an illegal word; no reachable state does (R105). -/
  | illegal (w : Word)
deriving DecidableEq, Repr

/-- The header byte PKT.RECV waits for in WAIT_HEADER is decoded as an instruction of its own (R111, R167); every
other step of a command is the command's (log entry 15). -/
def headerOr (i : Instr) (s : State) : Instr :=
  if i = .pktRecv ∧ s.fsm = .waitHeader then
    match s.rxq with
    | [] => i
    | b :: _ => decodeWire b
  else i

/-- Fetch: decode the command word in `CMD` (R45, R105). -/
def fetch (s : State) : Fetched :=
  match s.cmd with
  | none => .idle
  | some w =>
    match decodeCmd w with
    | .ok i => .run (headerOr i s)
    | .error _ => .illegal w

/-- The agents' next choice: the script's first event, or a free one when the script is empty (R267, log entry 3). -/
def nextEvent (s : State) : Event :=
  match s.script with
  | [] => Config.freeEvent s.tick
  | e :: _ => e

/-- The state with that choice made. -/
def takeEvent (s : State) : State :=
  match s.script with
  | [] => { s with tick := s.tick + 1 }
  | _ :: rest => { s with script := rest }

end Sys2Proof.Machine
end

