-- ==== Sys2Proof/Machine/Flags.lean ====
section
/-! DEFINITION. The status bits (10_state.md rules R51 to R54) and the register view (R50, R52). The block has no
condition codes (R53). -/

namespace Sys2Proof.Machine

/-- `TXE`: `TXH` is empty (R32). -/
def State.txe (s : State) : Bool := s.txh.isNone

/-- `RXC`: `RXQ` is not empty (R31). -/
def State.rxc (s : State) : Bool := !s.rxq.isEmpty

/-- `BUSY`: a command is in progress (R45). -/
def State.busy (s : State) : Bool := s.cmd.isSome

/-- `FAULTED`: `FAULT` is nonzero (R49). -/
def State.faulted (s : State) : Bool := s.fault != .none

/-- The code of a framer state (R36). -/
def Fsm.code : Fsm → Nat
  | .idle => 0
  | .waitHeader => 1
  | .readBlk => 2
  | .readBlkc => 3
  | .readPayload => 4
  | .readCrcHi => 5
  | .readCrcLo => 6
  | .validate => 7
  | .sendNak => 8

/-- The code of a writer state (R46). -/
def Wseq.code : Wseq → Nat
  | .idle => 0
  | .stage => 1
  | .commit => 2
  | .verify => 3
  | .flag => 4

/-- The value of `FAULT` (R260). -/
def FaultCode.code : FaultCode → Byte
  | .none => 0
  | .illegalCmd => 1
  | .pbInvalid => 2
  | .cursorRange => 3

/-- One status bit in its place. -/
def statusBit (b : Bool) (i : Nat) : Word := (BitVec.ofBool b).setWidth 16 <<< i

/-- The STATUS register (R51); bits 15:9 read as 0. -/
def State.status (s : State) : Word :=
  statusBit s.txe 0 ||| statusBit s.rxc 1 ||| statusBit s.act 2 ||| statusBit s.armed 3 ||| statusBit s.pbv 4
    ||| statusBit s.vfy 5 ||| statusBit s.nvmBusy 6 ||| statusBit s.busy 7 ||| statusBit s.faulted 8

/-- What a host read of the register view answers. -/
inductive RegRead where
  /-- The register's value. -/
  | value (v : Nat)
  /-- `PB[i]` while `PBV = 0` (R40, R52). -/
  | pbInvalid
  /-- A reserved register number (R52). -/
  | reserved
  /-- A register nothing has written since reset (R55). -/
  | unwritten
deriving DecidableEq, Repr

/-- A register R55 leaves unspecified: refused until written. -/
def RegRead.ofMarked (written : Bool) (v : Nat) : RegRead := if written then .value v else .unwritten

/-- The register view (R50): register `n` of the state. -/
def readRegister (n : Nat) (s : State) : RegRead :=
  if 0x80 ≤ n then
    match s.pb[n - 0x80]? with
    | none => .reserved
    | some b => if s.pbv then .value b.toNat else .pbInvalid
  else match n with
    | 0x00 => .value s.status.toNat
    | 0x01 => .ofMarked s.resW s.res.toNat
    | 0x02 => .value s.cursor
    | 0x03 => .value s.acc
    | 0x04 => .ofMarked s.blkW s.blk.toNat
    | 0x05 => .ofMarked s.blkcW s.blkc.toNat
    | 0x06 => .ofMarked s.crcrxW s.crcrx.toNat
    | 0x07 => .value s.fault.code.toNat
    | 0x08 => .value s.fsm.code
    | 0x09 => .value s.idx
    | 0x0A => .value s.wseq.code
    | _ => .reserved

end Sys2Proof.Machine
end

