-- ==== Sys2Proof/Machine/HostAgent.lean ====
section
/-! DEFINITION. HOST (48_host_software.md): issuing a command, reading the register view, and the statements of the
host's program. -/

namespace Sys2Proof.Machine

/-- Go to statement `n` of the program. -/
def goto (n : Nat) (s : State) : State := { s with hpc := .stmt n 0 }

/-- `Issue(w)` (30_encoding.md rule R105) by a host at `next` afterwards: an illegal word raises ILLEGAL_CMD and does
nothing else (R103, R262). The mark `issued` keeps that a command was issued (log entry 20). -/
def issue (w : Word) (next : HostPc) (s : State) : State :=
  match decodeCmd w with
  | .ok _ => { s with cmd := some w, hpc := next, issued := true }
  | .error _ => raiseFault .illegalCmd (.word w) s

/-- The Entry Decision's outcome (R241, R244): update mode. -/
def entersUpdate (flag : Byte) (ctrl : Bool) (c : Config) : Bool :=
  flag == ERASED || ctrl == c.ctrlActive

/-- The reset is what HOST did last: `MODE = BOOT`, as R241 has it at ENTRY, and no command was issued since the reset
(R240), so no commit of a session can lie between (R90). DEDUCED, log entry 20. -/
abbrev freshBoot (s : State) : Prop := s.mode = .boot ∧ s.issued = false

/-- `TransferTo(APP_START)` (R242). A jump there without the reset before it is refused (20_memory.md rule R90, U20).
`MODE` becomes APP for ENTRY by R241, and for a JMP.APP of its own by the model's choice (DESIGN CHOICE, log entry 32). -/
def transferToApp (s : State) : Out :=
  if freshBoot s then .next { s with mode := .app, hpc := .app s.cfg.appStart } else .refused .jumpWithoutReset

/-- `ENTRY` at statement `n` (R241): the flag is read first, then the pull-up is set and the control input drawn. The
update path is taken in any `MODE` (DESIGN CHOICE, log entry 20). -/
def entryStep (n : Nat) (ctrl : Bool) (s : State) : Out :=
  if s.cfg.flagAddr < s.cfg.eepromSize then
    let t := { s with pullup := true }
    if entersUpdate (eeByte s.cfg.flagAddr s) ctrl s.cfg then .next (goto (n + 1) { t with mode := .update })
    else transferToApp t
  else .fault (.eeRange s.cfg.flagAddr)

/-- `POLL cnt, target` at statement `n`, after `k` probes (R250): test the last probe's `RES`, then issue the next
probe while fewer than `cnt` were issued. -/
def pollStep (n k cnt target : Nat) (s : State) : State :=
  if k ≠ 0 ∧ s.res = 0x0001 then goto target s
  else if k < cnt then issue (tableWord .actProbe) (.stmt n (k + 1)) s
  else goto (n + 1) s

/-- The other value of `LED`. -/
def Led.toggle : Led → Led
  | .off => .on
  | .on => .off

/-- The value of `RES` that `JEQ` compares (R250): what a command wrote, else a free one (U6, "any value"; log entry
31). -/
def resSeen (s : State) : Word := if s.resW then s.res else Config.unwrittenRes

/-- One statement of the host's program (R250), at position `n` with `k` probes issued. -/
def stmtStep (n k : Nat) (ctrl : Bool) (r : ResetDraw) (s : State) : HostStmt → Out
  | .command w => .next (issue w (.stmt (n + 1) 0) s)
  | .entry => entryStep n ctrl s
  | .jeqRes imm target => .next (goto (if resSeen s = imm then target else n + 1) s)
  | .jmp target => .next (goto target s)
  | .poll cnt target => .next (pollStep n k cnt target s)
  | .ledToggle => .next (goto (n + 1) { s with led := s.led.toggle })
  | .ledOn => .next (goto (n + 1) { s with led := .on })
  | .waitCtrl =>
    let t := { s with pullup := true }
    .next (if ctrl = s.cfg.ctrlActive then t else goto (n + 1) t)
  | .reset => .next (deviceReset r s)
  | .jmpApp => transferToApp s

/-- A step of HOST's program. HOST is blocked while `BUSY = 1` (R45); past the transfer of control the application
leaves the block as it stands (R242); past the program's last statement HOST has no step. -/
def hostStep (ctrl : Bool) (r : ResetDraw) (s : State) : Out :=
  if s.busy then .next s
  else match s.hpc with
    | .app _ | .appReset => .next s
    | .stmt n k =>
      match s.prog[n]? with
      | none => .next s
      | some st => stmtStep n k ctrl r s st

/-- HOST issues a word of its own choice (R249): only while `BUSY = 0`, and not from the application (R242, U20). It may
do so at BOOT before ENTRY too, where R240 has no command; only ENTRY's transfer is refused afterwards (DESIGN CHOICE,
log entry 33). -/
def issueStep (w : Word) (s : State) : Out :=
  if s.busy then .next s
  else match s.hpc with
    | .app _ | .appReset => .refused (.issuedFromApplication w)
    | .stmt _ _ => .next (issue w s.hpc s)

/-- A read of register `n` of the view (R50): it changes nothing where the register has a value, answers `outside` for
`PB` outside its window (R40), and is refused where the spec refuses it: a reserved number (R52, U2), and RES, BLK, BLKC
or CRCRX before anything wrote it ("host read refused until the first packet sets them", R55; U6, D19). -/
def readView (outside : Out) (n : Nat) (s : State) : Out :=
  match readRegister n s with
  | .value _ => .next s
  | .pbInvalid => outside
  | .reserved => .refused (.reservedRegister n)
  | .unwritten => .refused (.unwrittenRegister n)

/-- HOST reads register `n` (R50, R52). The answer is `readRegister n s`; a read of `PB` outside its window raises
PB_INVALID (R40, R260). It is a step also while
a command runs (R45) and, by the model's choice, past the transfer of control (DESIGN CHOICE, log entry 29). -/
def hostReadStep (n : Nat) (s : State) : Out := readView (.next (raiseFault .pbInvalid (.register n) s)) n s

/-- A step after a fault (R262, R263): HOST may only read the register view; `FAULT` never changes again (R49). -/
def afterFault (e : Event) (s : State) : Out :=
  match e with
  | .hostRead n => readView (.fault (.stopped s.fault)) n s
  | .block | .host _ _ | .issue _ | .app _ | .rxEdge | .rxByte _ | .txDrain | .nvm _ | .reset _ =>
    .fault (.stopped s.fault)

end Sys2Proof.Machine
end

