-- ==== Sys2Proof/Machine/Step.lean ====
section
/-! DEFINITION. One step of one agent (00_scope.md rule R22, 60_exceptions.md rule R267). -/

namespace Sys2Proof.Machine

/-- A step of BLOCK: the instruction it fetches, if any. -/
def blockStep (s : State) : Out :=
  match fetch s with
  | .idle => .next s
  | .run i => exec i s
  | .illegal w => .next (raiseFault .illegalCmd (.word w) s)

/-- The step of the agent an event names (R22). -/
def agentStep (e : Event) (s : State) : Out :=
  match e with
  | .block => blockStep s
  | .host ctrl r => hostStep ctrl r s
  | .issue w => issueStep w s
  | .hostRead n => hostReadStep n s
  | .app r => .next (appStep r s)
  | .rxEdge => .next (rxEdge s)
  | .rxByte b => .next (rxByte b s)
  | .txDrain => .next (txDrain s)
  | .nvm draw => nvmComplete draw s
  | .reset r => .next (deviceReset r s)

/-- One step. A configuration that breaks rule R16 has none; after a fault only a register read is one (R262). -/
def step (s : State) : Host.Outcome State Fault Refusal :=
  if s.cfg.Admitted then
    if s.faulted then afterFault (nextEvent s) (takeEvent s)
    else agentStep (nextEvent s) (takeEvent s)
  else .refused .badConfig

/-- The state in which the next step runs the instruction whose bits are `w`: a command word is in `CMD` and BLOCK is
scheduled; a header byte (at most 8 bits) is at the front of `RXQ` with PKT.RECV in WAIT_HEADER (log entry 17). -/
def State.withFetchWord (s : State) (nbits w : Nat) : State :=
  if nbits ≤ 8 then
    { s with
      cmd := some (tableWord .pktRecv)
      fsm := .waitHeader
      rxq := immOf (BitVec.ofNat 16 w) :: s.rxq
      script := .block :: s.script }
  else
    { s with
      cmd := some (BitVec.ofNat 16 w)
      script := .block :: s.script }

end Sys2Proof.Machine
end

