-- ==== Sys2Proof/Safety.lean ====
section
/-! DEFINITION. What claims are stated in: the invariant of every run, fault-free ends, fairness of LINE and NVM,
nominal oracles, the schedules of a whole command, and the host's duties. -/

namespace Sys2Proof.Safety

open Sys2Proof.Machine

/-- A state in which no fault has occurred: every claim about a run's end takes it as a premise (R263). -/
abbrev FaultFree (s : State) : Prop := s.fault = .none

/-- BLOCK takes the next step of a machine that can take one (R22, R262): the configuration is admitted, no fault
has occurred, and the script's next event is `e`, with `rest` after it. -/
abbrev Scheduled (e : Event) (rest : List Event) (s : State) : Prop :=
  s.cfg.Admitted ∧ FaultFree s ∧ s.script = e :: rest

/-- Control is with the application (R242). -/
def HandedOver (s : State) : Prop := ∀ n k, s.hpc ≠ .stmt n k

/-- What the writer's sequencer says of the writer's registers (R42, R79, R200 to R203, R210). -/
def WriterForm (s : State) : Prop :=
  match s.wseq with
  | .idle => s.acc = 0 ∧ (s.nvmBusy = true → s.hpc = .appReset)
  | .stage =>
    s.cmd = some (tableWord .nvmWrblk) ∧ s.pbv = true ∧ cursorFits s ∧ s.widx < 128 ∧
      s.acc = s.widx % s.cfg.pageSize ∧ s.nvmBusy = false
  | .commit =>
    s.cmd = some (tableWord .nvmWrblk) ∧ s.pbv = true ∧ cursorFits s ∧ 0 < s.widx ∧ s.widx ≤ 128 ∧
      s.widx % s.cfg.pageSize = 0 ∧ s.paddr + s.cfg.pageSize = s.cursor + s.widx ∧
      (s.acc = 0 ∨ s.acc = s.cfg.pageSize ∧ s.nvmBusy = false)
  | .verify =>
    s.cmd = some (tableWord .nvmWrblk) ∧ s.pbv = true ∧ cursorFits s ∧ s.widx = 128 ∧ s.acc = 0 ∧
      s.nvmBusy = false
  | .flag => s.cmd = some (tableWord .nvmFlag) ∧ s.acc = 0

/-- What a pending commit is (R47, R79, R210, R246): the page just staged, or a flag write. -/
def CommitForm (s : State) : Commit → Prop
  | .flash page data => s.wseq = .commit ∧ s.acc = 0 ∧ page = s.paddr ∧ data.length = s.cfg.pageSize
  | .ee addr _ => addr = s.cfg.flagAddr ∧ (s.wseq = .flag ∨ s.hpc = .appReset)

/-- The invariant of every run (R56, R30, R36, R39, R42, R45 to R47, R71, R72, R75). It holds in every state, not
only between commands; R56 is its reading where `BUSY = 0`. -/
structure Inv (s : State) : Prop where
  /-- The configuration is admitted (R16). -/
  admitted : s.cfg.Admitted
  /-- FLASH and EE are in canonical form. -/
  flashForm : s.flash.wf
  eeForm : s.ee.wf
  /-- Every byte written to FLASH lies in the application region (R72). -/
  flashRegion : ∀ c ∈ s.flash, s.cfg.appStart ≤ c.1 ∧ c.1 < s.cfg.flashSize
  /-- Only the Persisted Flag is written in EE (R75). -/
  eeRegion : ∀ c ∈ s.ee, c.1 = s.cfg.flagAddr
  /-- The command in progress is a legal word (R105). -/
  cmdLegal : ∀ w, s.cmd = some w → ∃ i, decodeCmd w = .ok i
  /-- `pending_commit ≠ none` exactly when `NVMBUSY = 1` (R47). -/
  busyBit : s.nvmBusy = s.pending.isSome
  /-- The page buffer has `PAGE_SIZE` bytes (R43). -/
  pageLength : s.pgbuf.length = s.cfg.pageSize
  /-- `CURSOR = APP_START + 128 * k` (R56(a)), and within FLASH. -/
  cursorForm : (∃ k, s.cursor = s.cfg.appStart + 128 * k) ∧ s.cursor ≤ s.cfg.flashSize
  /-- The counters' ranges (R39, R42, R46). -/
  counters : s.idx ≤ 128 ∧ s.widx ≤ 128 ∧ s.acc ≤ s.cfg.pageSize
  /-- The framer runs only in PKT.RECV, and `PBV = 0` while it does (R56(d), R165). -/
  framerForm : s.fsm ≠ .idle → s.cmd = some (tableWord .pktRecv) ∧ s.pbv = false
  /-- READ_PAYLOAD has a byte left to read (R171). -/
  payloadForm : s.fsm = .readPayload → s.idx < 128
  /-- The writer's registers (R56(c), R56(d)). -/
  writerForm : WriterForm s
  /-- The pending commit (R47). -/
  commitForm : ∀ c, s.pending = some c → CommitForm s c
  /-- No command runs once control is with the application (R242). -/
  handedOver : HandedOver s → s.cmd = none
  /-- The command in progress was issued since the reset (R105). -/
  issuedMark : s.cmd ≠ none → s.issued = true

/-- A run from `s`: every step answers a next state. -/
def Run (r : Nat → State) : Prop := ∀ n, step (r n) = .next (r (n + 1))

/-- `TxDrain` is weakly fair (R138): a byte in `TXH` does not stay there for ever. A premise, not built into `step`
(log entry 4). -/
def DrainFair (r : Nat → State) : Prop := ∀ n, (r n).txh ≠ none → ∃ m, n ≤ m ∧ (r m).txh = none

/-- `NvmComplete` is weakly fair (R80): a commit is completed eventually (log entry 4). -/
def CommitFair (r : Nat → State) : Prop := ∀ n, (r n).nvmBusy = true → ∃ m, n ≤ m ∧ (r m).nvmBusy = false

/-- The event is not a completion with a draw of its own: the oracle is nominal (R81). -/
def NominalEvent : Event → Prop
  | .nvm draw => draw = []
  | .block | .host _ _ | .issue _ | .hostRead _ | .app _ | .rxEdge | .rxByte _ | .txDrain | .reset _ => True

/-- BLOCK steps only. -/
def blocks (n : Nat) : List Event := List.replicate n .block

/-- One page of NVM.WRBLK: its staging, its commit, the nominal completion, and the end of the hold (R201, R202, R80). -/
def pageSchedule (c : Config) : List Event := blocks c.pageSize ++ [.block, .nvm [], .block]

/-- `n` pages of NVM.WRBLK. -/
def pagesSchedule (c : Config) : Nat → List Event
  | 0 => []
  | n + 1 => pageSchedule c ++ pagesSchedule c n

/-- A whole NVM.WRBLK under the nominal oracle: the first step, `128 / PAGE_SIZE` pages (R206), the verify. -/
def writeSchedule (c : Config) : List Event := .block :: (pagesSchedule c (128 / c.pageSize) ++ [.block])

/-- A 133-byte packet (R110). -/
def packet (b c : Byte) (p : Vector Byte 128) (h l : Byte) : List Byte := [SOH, b, c] ++ p.toList ++ [h, l]

/-- What HOST does at the block, and what the block gives back (R249). -/
inductive HostAct where
  /-- HOST issues a command. -/
  | issue (i : Instr)
  /-- The command in progress ends, with this value in `RES`. -/
  | ended (res : Word)
  /-- HOST reads a register of the view. -/
  | read (n : Nat)
  /-- HOST resets the device. -/
  | reset
deriving DecidableEq, Repr

/-- An acknowledgement HOST owes (R249, row "acknowledge"). -/
inductive Owed where
  /-- For an accepted block that NVM.WRBLK has not written: nothing may be sent for it yet. -/
  | unwritten
  /-- For an accepted block after NVM.WRBLK; `verified` once it returned 0x0001. -/
  | written (verified : Bool)
  /-- For an end of transmission. -/
  | eot
deriving DecidableEq, Repr

/-- Whether the byte `b` pays what is owed: one 0x06 or 0x15 for a block after NVM.WRBLK, one 0x06 for an EOT (R249);
0x06 for a block only after NVM.WRBLK returned 0x0001 (R299). -/
def Owed.paidBy (b : Byte) : Owed → Bool
  | .unwritten => false
  | .written verified => b == NAK || (b == ACK && verified)
  | .eot => b == ACK

/-- What NVM.WRBLK's result makes of what is owed for its block. -/
def Owed.wrote (verified : Bool) : Owed → Owed
  | .unwritten => .written verified
  | .written before => .written (before || verified)
  | .eot => .eot

/-- The same in the list of what is owed, oldest first: NVM.WRBLK writes the block accepted last. -/
def Owed.wroteLast (verified : Bool) : List Owed → List Owed
  | [] => []
  | [o] => [o.wrote verified]
  | o :: p :: rest => o :: wroteLast verified (p :: rest)

/-- Where a host stands in the duties of rule R249. -/
structure Duty where
  /-- The command in progress. -/
  current : Option Instr
  /-- No PKT.RECV was issued since the reset: the handshake (R232, R233). -/
  handshake : Bool
  /-- The last PKT.RECV accepted a block, so that `PBV = 1` (R40). -/
  accepted : Bool
  /-- The last PKT.RECV ended the session (R235). -/
  ended : Bool
  /-- The acknowledgements not sent yet, oldest first. -/
  owed : List Owed
deriving DecidableEq, Repr

/-- Where a host stands after a reset. -/
def Duty.start : Duty where
  current := none
  handshake := true
  accepted := false
  ended := false
  owed := []

/-- After the byte `b` was sent. The ready probe of the handshake and any byte that is no acknowledgement are the
host's liberty; 0x06 and 0x15 must pay the oldest acknowledgement owed. -/
def Duty.sent (probe b : Byte) (d : Duty) : Option Duty :=
  if (d.handshake ∧ b = probe) ∨ (b ≠ ACK ∧ b ≠ NAK) then some d
  else match d.owed with
    | [] => none
    | o :: rest => if o.paidBy b then some { d with owed := rest } else none

/-- The duty after a host whose `READY_PROBE` is `probe` issues `i`. A further PKT.RECV is a breach while a block is not
written, since that block's acknowledgement could no longer follow its NVM.WRBLK. -/
def Duty.issue (probe : Byte) (i : Instr) (d : Duty) : Option Duty :=
  match i with
  | .rxRecv | .actArm | .crcCalc => some d
  | .actProbe => if d.handshake then some d else none
  | .txSend b => d.sent probe b
  | .pktRecv =>
    if Owed.unwritten ∈ d.owed then none
    else some { d with handshake := false, accepted := false, ended := false }
  | .nvmWrblk => if d.accepted then some d else none
  | .nvmFlag => if d.ended then some d else none
  | .wireSoh | .wireEot | .wireNoise _ => none

/-- The duty after the command `i` returned `res`: an accepted block and an EOT each owe one acknowledgement. -/
def Duty.result (i : Instr) (res : Word) (d : Duty) : Duty :=
  match i with
  | .pktRecv =>
    if res = resBlock then { d with accepted := true, owed := d.owed ++ [.unwritten] }
    else if res = resEot then { d with ended := true, owed := d.owed ++ [.eot] }
    else d
  | .nvmWrblk => { d with owed := Owed.wroteLast (res == resVerified) d.owed }
  | .txSend _ | .rxRecv | .actArm | .actProbe | .crcCalc | .nvmFlag | .wireSoh | .wireEot | .wireNoise _ => d

/-- The duty after one act; `none` where the act breaks the table of rule R249. What the table leaves free is free here:
receiving a byte, arming, the CRC, other sends, further receives, reads, a reset. -/
def Duty.next (probe : Byte) (d : Duty) : HostAct → Option Duty
  | .reset => some .start
  | .read n => if 0x80 ≤ n ∧ n ≤ 0xFF ∧ d.accepted = false then none else some d
  | .issue i => if d.current = none then (d.issue probe i).map fun e => { e with current := some i } else none
  | .ended res => d.current.map fun i => { d.result i res with current := none }

/-- The acts of a host keep the duties of rule R249 from `d` on. -/
def Duty.kept (probe : Byte) (d : Duty) : List HostAct → Bool
  | [] => true
  | a :: rest =>
    match d.next probe a with
    | none => false
    | some e => Duty.kept probe e rest

/-- The host owes nothing: every accepted block and every EOT was acknowledged exactly once (R249). -/
def Duty.settled (d : Duty) : Bool := d.owed.isEmpty

end Sys2Proof.Safety
end

