-- ==== Sys2Proof/Certificates/Slice0/Obligations.lean ====
section
/-! DEFINITION. The statements for the provers. Each docstring names the rule it formalises and how a reader is to
take it. -/

open Sys2Proof
open Sys2Proof.Machine
open Sys2Proof.Safety

/-! ## Encoding -/

/-- One word of every row of R101, written out from its OP and IMM8 fields, and both markers of R111, decode to the
instruction they stand for. -/
def Obligations.WrittenWordsDecode : Prop :=
  decodeCmd 0x0143 = .ok (.txSend 0x43) ∧ decodeCmd 0x01FF = .ok (.txSend 0xFF) ∧
  decodeCmd 0x0200 = .ok .rxRecv ∧ decodeCmd 0x0300 = .ok .actArm ∧ decodeCmd 0x0400 = .ok .actProbe ∧
  decodeCmd 0x1000 = .ok .crcCalc ∧ decodeCmd 0x2000 = .ok .pktRecv ∧ decodeCmd 0x3000 = .ok .nvmWrblk ∧
  decodeCmd 0x3100 = .ok .nvmFlag ∧
  decodeWire 0x01 = .wireSoh ∧ decodeWire 0x04 = .wireEot ∧ decodeWire 0x43 = .wireNoise 0x43

/-- Every well-formed instruction, with every operand, is what its encoding decodes to, with nothing of the bytes
after it taken (R100, R101, R108, R111). -/
def Obligations.DecodeOfEncode : Prop :=
  ∀ (i : Instr) (rest : List Byte), i.WellFormed →
    decode i.space (encode i ++ rest) = .ok (i, rest) ∧
    decodeTableWord i.nbits (tableWord i).toNat = some i

/-- The other direction: every command word and every header byte that decodes is the encoding of what it decodes
to, which is well formed and of its own space (R101, R103, R114). -/
def Obligations.EncodeOfDecode : Prop :=
  (∀ (w : Word) (i : Instr), decodeCmd w = .ok i → tableWord i = w ∧ i.space = .command ∧ i.WellFormed) ∧
  (∀ b : Byte, encode (decodeWire b) = [b] ∧ (decodeWire b).space = .wire ∧ (decodeWire b).WellFormed)

/-- R103: every word matches exactly one row, whose instruction it decodes to, or none, and then it is rejected; it is
rejected exactly when its OP is not in the table, or is another OP than TX.SEND's and IMM8 is not 0. -/
def Obligations.DecodingIsTotalAndUnambiguous : Prop :=
  (∀ w : Word,
    (∃ r, cmdTable.filter (fun q => q.hits w) = [r] ∧ decodeCmd w = .ok (r.build (immOf w))) ∨
    (cmdTable.filter (fun q => q.hits w) = [] ∧ ∃ e, decodeCmd w = .error e)) ∧
  (∀ w : Word,
    (∃ e, decodeCmd w = .error e) ↔
      (opOf w ∉ [0x01#8, 0x02#8, 0x03#8, 0x04#8, 0x10#8, 0x20#8, 0x30#8, 0x31#8] ∨
        (opOf w ≠ 0x01#8 ∧ immOf w ≠ 0x00#8)))

/-! ## The step -/

/-- BLOCK runs what it fetches. A command word in `CMD` that decodes to `i` is run as `exec i`, in the state whose
script has moved on and which is otherwise the same; the only step of a command that is fetched elsewhere is
PKT.RECV's in WAIT_HEADER with a byte in `RXQ`: it runs the instruction that byte decodes to. -/
def Obligations.StepRunsTheDecodedInstruction : Prop :=
  (∀ (s : State) (rest : List Event) (w : Word) (i : Instr),
    Scheduled .block rest s → s.cmd = some w → decodeCmd w = .ok i →
    (i = .pktRecv → s.fsm = .waitHeader → s.rxq = []) →
    step s = exec i { s with script := rest }) ∧
  (∀ (s : State) (rest : List Event) (b : Byte) (q : List Byte),
    Scheduled .block rest s → s.cmd = some (tableWord .pktRecv) → s.fsm = .waitHeader → s.rxq = b :: q →
    step s = exec (decodeWire b) { s with script := rest })

/-- R105, R103: HOST, not blocked and not past the transfer of control, issues a word: a legal one becomes `CMD`, an
illegal one raises ILLEGAL_CMD with the word recorded; nothing else changes, but for the model's script and, for a legal
word, its mark that a command was issued since the reset (log entry 20). That this holds before ENTRY too, where R240 has
no command, is log entry 33 (DESIGN CHOICE). -/
def Obligations.IssueSetsTheCommand : Prop :=
  ∀ (s : State) (rest : List Event) (w : Word) (n k : Nat),
    Scheduled (.issue w) rest s → s.cmd = none → s.hpc = .stmt n k →
    (∀ i, decodeCmd w = .ok i → step s = .next { s with script := rest, cmd := some w, issued := true }) ∧
    (∀ e, decodeCmd w = .error e →
      step s = .next { s with script := rest, fault := .illegalCmd, faultRec := .word w })

/-- R45: while a command is in progress HOST's program and its own issues have no step; the model's script moves on
and nothing else changes. -/
def Obligations.HostIsBlockedWhileBusy : Prop :=
  ∀ (s : State) (rest : List Event) (e : Event),
    Scheduled e rest s → s.cmd ≠ none → ((∃ c r, e = .host c r) ∨ (∃ w, e = .issue w)) →
    step s = .next { s with script := rest }

/-- R16: a configuration that breaks a constraint of R8 to R15 has no run. -/
def Obligations.BadConfigurationIsRefused : Prop :=
  ∀ s : State, ¬ s.cfg.Admitted → step s = .refused .badConfig

/-- R49, R262, R263: in a faulted state only a read of the register view is a step, it changes nothing but the
model's script, and `FAULT` stays. R262 takes BLOCK's steps and all of HOST's but the reads away; that LINE, NVM and ENV
take no step either is the model's reading of R263 and U19 (log entry 12, DEDUCED). -/
def Obligations.FaultIsFinal : Prop :=
  ∀ s t : State, s.fault ≠ .none → step s = .next t →
    (∃ n v, nextEvent s = .hostRead n ∧ readRegister n s = .value v) ∧ t = takeEvent s ∧ t.fault = s.fault

/-- R262: a step that raises a fault changes only `FAULT`, its record and the model's script. -/
def Obligations.FaultsArePrecise : Prop :=
  ∀ s t : State, s.fault = .none → step s = .next t → t.fault ≠ .none →
    t = raiseFault t.fault t.faultRec (takeEvent s)

/-! ## Byte Transport -/

/-- R131: TX.SEND, of word `0x0100 | b`, puts its byte in an empty `TXH` and ends; it holds while `TXH` is not empty.
`RES` is unchanged either way. -/
def Obligations.TxSendWritesTxh : Prop :=
  ∀ (s : State) (b : Byte),
    decodeCmd (0x0100 ||| b.setWidth 16) = .ok (.txSend b) ∧
    (s.txh = none → exec (.txSend b) s = .next { s with txh := some b, cmd := none }) ∧
    (∀ x, s.txh = some x → exec (.txSend b) s = .next s)

/-- R132: RX.RECV, of word 0x0200, takes the front of `RXQ` into `RES`, zero-extended, and ends; it holds while `RXQ`
is empty. `ACT` is unchanged. -/
def Obligations.RxRecvTakesTheFront : Prop :=
  decodeCmd 0x0200 = .ok .rxRecv ∧ ∀ s : State,
    (∀ b q, s.rxq = b :: q →
      exec .rxRecv s = .next { s with rxq := q, res := b.setWidth 16, resW := true, cmd := none }) ∧
    (s.rxq = [] → exec .rxRecv s = .next s)

/-- R133, R134: ACT.ARM, of word 0x0300, arms and clears the latch; ACT.PROBE, of word 0x0400, reads it into `RES` and
leaves it. Both end at once, in every state. -/
def Obligations.LatchArmAndProbe : Prop :=
  decodeCmd 0x0300 = .ok .actArm ∧ decodeCmd 0x0400 = .ok .actProbe ∧ ∀ s : State,
    exec .actArm s = .next { s with armed := true, act := false, cmd := none } ∧
    exec .actProbe s = .next { s with res := if s.act then 1 else 0, resW := true, cmd := none }

/-- R137, R138: LINE's three steps, in any state that can take a step: an edge sets `ACT` only while armed, a byte is
appended to `RXQ` and latches too, and a byte in `TXH` goes to the end of `TXLOG`. R138 enables the drain only while
`TXH` is not empty; that a drain of an empty `TXH` leaves all as is, is the model's (log entry 8, DEDUCED). -/
def Obligations.LineSteps : Prop :=
  ∀ (s : State) (rest : List Event),
    (Scheduled .rxEdge rest s → step s = .next { s with script := rest, act := s.act || s.armed }) ∧
    (∀ b, Scheduled (.rxByte b) rest s →
      step s = .next { s with script := rest, act := s.act || s.armed, rxq := s.rxq ++ [b] }) ∧
    (∀ b, Scheduled .txDrain rest s → s.txh = some b →
      step s = .next { s with script := rest, txh := none, txlog := s.txlog ++ [b] }) ∧
    (Scheduled .txDrain rest s → s.txh = none → step s = .next { s with script := rest })

/-- The frame of the transport's commands, every form of each: the one memory, register and latch each rule names may
change, and nothing else (R131 to R134, R86). -/
def Obligations.TransportFrame : Prop :=
  ∀ s t : State,
    (∀ b, exec (.txSend b) s = .next t → { t with txh := s.txh, cmd := s.cmd } = s) ∧
    (exec .rxRecv s = .next t → { t with rxq := s.rxq, res := s.res, resW := s.resW, cmd := s.cmd } = s) ∧
    (exec .actArm s = .next t → { t with armed := s.armed, act := s.act, cmd := s.cmd } = s) ∧
    (exec .actProbe s = .next t → { t with res := s.res, resW := s.resW, cmd := s.cmd } = s)

/-! ## Checksum Engine -/

/-- R153: CRC.CALC, of word 0x1000, on a valid block gives its CRC; on none it raises PB_INVALID with its word
recorded. After an accept it gives the checksum the packet carried, which R153 itself infers ("derived: from R173 and
R174"), so the statement is derived. -/
def Obligations.CrcCalcComputesOrFaults : Prop :=
  decodeCmd 0x1000 = .ok .crcCalc ∧ ∀ s : State,
    (s.pbv = true →
      exec .crcCalc s = .next { s with crcreg := crc16 s.pb, res := crc16 s.pb, resW := true, cmd := none }) ∧
    (s.pbv = false → exec .crcCalc s = .next { s with fault := .pbInvalid, faultRec := .word 0x1000 }) ∧
    (s.fsm = .validate → crc16 s.pb = s.crcrx → s.blk.toNat + s.blkc.toNat = 255 →
      ∃ t u, exec .pktRecv s = .next t ∧ exec .crcCalc t = .next u ∧ u.res = s.crcrx)

/-- R154(c), R154(f), R155: zero bytes leave a zero register, so the CRC of 128 zero bytes is 0; with 127 zero bytes
before it the last byte alone decides: the 8-round result of the byte in the high half. The last two clauses fix which
CRC it is: 0x01 after 127 zero bytes gives the polynomial 0x1021, and 0x01 before them the golden vector 0x9295. -/
def Obligations.CrcOfZeroBytes : Prop :=
  (∀ n, crcFrom crcInit (List.replicate n 0) = 0) ∧ crc16 (Vector.replicate 128 0) = 0 ∧
  (∀ b : Byte, crc16 ((Vector.replicate 128 0).set 127 b (by omega)) = Nat.repeat crcRound 8 (b ++ 0x00#8)) ∧
  crc16 ((Vector.replicate 128 0).set 127 0x01 (by omega)) = 0x1021 ∧
  crc16 ((Vector.replicate 128 0).set 0 0x01 (by omega)) = 0x9295

/-- R154(d): the CRC is linear over XOR. -/
def Obligations.CrcIsLinear : Prop :=
  ∀ a b : Vector Byte 128, crc16 (Vector.zipWith (· ^^^ ·) a b) = crc16 a ^^^ crc16 b

/-- R154(e): flipping any one bit of the input changes the result. -/
def Obligations.CrcDetectsEveryBitFlip : Prop :=
  ∀ (d : Vector Byte 128) (i : Fin 128) (k : Fin 8),
    crc16 (d.set i.val (d[i] ^^^ (1#8 <<< k.val)) i.isLt) ≠ crc16 d

/-! ## Packet Receiver -/

/-- R166: PKT.RECV's first step. -/
def Obligations.PktRecvOpensTheFramer : Prop :=
  ∀ s : State, s.fsm = .idle →
    exec .pktRecv s = .next { s with pbv := false, idx := 0, fsm := .waitHeader }

/-- R167, R168, and R169's first step: in WAIT_HEADER the three kinds of header byte, each at the front of `RXQ`, do
what their rules say: 0x01 starts a block, 0x04 ends the command with `RES = 2`, leaves `PBV` and sends nothing, any other
byte is discarded. With no byte the framer holds. -/
def Obligations.HeaderBytesInWaitHeader : Prop :=
  ∀ s : State, s.fsm = .waitHeader →
    (s.rxq = [] → exec .pktRecv s = .next s) ∧
    (∀ q, s.rxq = SOH :: q → exec .wireSoh s = .next { s with rxq := q, fsm := .readBlk }) ∧
    (∀ q, s.rxq = EOT :: q →
      exec .wireEot s = .next { s with rxq := q, fsm := .idle, res := 2, resW := true, cmd := none }) ∧
    (∀ b q, s.rxq = b :: q → (Instr.wireNoise b).WellFormed →
      exec (.wireNoise b) s = .next { s with rxq := q })

/-- A header byte at the front of `RXQ` does, as an instruction of its own, what PKT.RECV's own step does there: in
WAIT_HEADER its kind decides (R111, R167), and inside a packet it is data like any byte (R114, R170 to R172). That a
header byte is an instruction with a meaning of its own in these states is the model's (log entry 15, DESIGN CHOICE). -/
def Obligations.HeaderByteIsPktRecvsOwnStep : Prop :=
  ∀ (s : State) (b : Byte) (q : List Byte), s.rxq = b :: q →
    s.fsm ∈ [.waitHeader, .readBlk, .readBlkc, .readPayload, .readCrcHi, .readCrcLo] →
    exec (decodeWire b) s = exec .pktRecv s

/-- R170 to R172: the reading states, one byte each, which hold while `RXQ` is empty. READ_PAYLOAD is stated where a
byte of `PB` is left to read, as it is in every reachable state (the invariant's `payloadForm`). -/
def Obligations.ReadingStatesStoreTheByte : Prop :=
  ∀ s : State,
    (s.rxq = [] → s.fsm ∈ [.readBlk, .readBlkc, .readPayload, .readCrcHi, .readCrcLo] →
      exec .pktRecv s = .next s) ∧
    ∀ (b : Byte) (q : List Byte), s.rxq = b :: q →
      (s.fsm = .readBlk → exec .pktRecv s = .next { s with rxq := q, blk := b, blkW := true, fsm := .readBlkc }) ∧
      (s.fsm = .readBlkc →
        exec .pktRecv s = .next { s with rxq := q, blkc := b, blkcW := true, idx := 0, fsm := .readPayload }) ∧
      (∀ h : s.idx < 128, s.fsm = .readPayload →
        exec .pktRecv s = .next { s with
          rxq := q, pb := s.pb.set s.idx b h, idx := s.idx + 1,
          fsm := if s.idx + 1 = 128 then .readCrcHi else .readPayload }) ∧
      (s.fsm = .readCrcHi →
        exec .pktRecv s = .next { s with rxq := q, crcrx := b ++ 0x00#8, crcrxW := true, fsm := .readCrcLo }) ∧
      (s.fsm = .readCrcLo →
        exec .pktRecv s = .next { s with
          rxq := q, crcrx := s.crcrx.extractLsb' 8 8 ++ b, crcrxW := true, fsm := .validate })

/-- R173, R174: VALIDATE accepts exactly when the checksum matches and the two block-number bytes sum to 255; an accept
sets `PBV`, gives `RES = 1` and sends nothing, anything else goes to SEND_NAK with the command still in progress.
The sum is 255 exactly when the second byte is the complement of the first: R113's and R173's own inference, so the
statement is derived. -/
def Obligations.ValidateAcceptsExactlyTheGoodPacket : Prop :=
  ∀ s : State, s.fsm = .validate →
    (crc16 s.pb = s.crcrx ∧ s.blk.toNat + s.blkc.toNat = 255 →
      exec .pktRecv s = .next { s with
        crcreg := crc16 s.pb, pbv := true, fsm := .idle, res := 1, resW := true, cmd := none }) ∧
    (¬ (crc16 s.pb = s.crcrx ∧ s.blk.toNat + s.blkc.toNat = 255) →
      exec .pktRecv s = .next { s with crcreg := crc16 s.pb, fsm := .sendNak }) ∧
    (s.blk.toNat + s.blkc.toNat = 255 ↔ s.blkc = ~~~s.blk)

/-- R175: SEND_NAK puts 0x15 in an empty `TXH` and waits for a header again; it holds while `TXH` is not empty. -/
def Obligations.RejectSendsOneNak : Prop :=
  ∀ s : State, s.fsm = .sendNak →
    (s.txh = none → exec .pktRecv s = .next { s with txh := some 0x15, fsm := .waitHeader }) ∧
    (∀ x, s.txh = some x → exec .pktRecv s = .next s)

/-- R177, first half: from the start of PKT.RECV, with noise and a well-formed packet in `RXQ`, BLOCK's steps end the
command with the packet's 128 bytes in `PB`; the whole end state is given, so nothing is sent and later bytes stay. -/
def Obligations.WellFormedPacketIsAccepted : Prop :=
  ∀ (s : State) (n : List Byte) (b c h l : Byte) (p : Vector Byte 128) (later : List Byte) (rest : List Event),
    s.cfg.Admitted → FaultFree s → s.cmd = some (tableWord .pktRecv) → s.fsm = .idle →
    (∀ x ∈ n, x ≠ SOH ∧ x ≠ EOT) → s.rxq = n ++ packet b c p h l ++ later →
    s.script = blocks (n.length + 135) ++ rest →
    b.toNat + c.toNat = 255 → h ++ l = crc16 p →
    core.run (n.length + 135) s = .next { s with
      script := rest, rxq := later, blk := b, blkW := true, blkc := c, blkcW := true, idx := 128, pb := p,
      crcrx := h ++ l, crcrxW := true, crcreg := crc16 p, pbv := true, fsm := .idle,
      res := 1, resW := true, cmd := none }

/-- R177, second half: if either check fails the framer sends one 0x15 and is back in WAIT_HEADER of the same command,
with the bytes after the packet still queued (R165, R175, R180). -/
def Obligations.BadPacketIsRejected : Prop :=
  ∀ (s : State) (n : List Byte) (b c h l : Byte) (p : Vector Byte 128) (later : List Byte) (rest : List Event),
    s.cfg.Admitted → FaultFree s → s.cmd = some (tableWord .pktRecv) → s.fsm = .idle → s.txh = none →
    (∀ x ∈ n, x ≠ SOH ∧ x ≠ EOT) → s.rxq = n ++ packet b c p h l ++ later →
    s.script = blocks (n.length + 136) ++ rest →
    (b.toNat + c.toNat ≠ 255 ∨ h ++ l ≠ crc16 p) →
    core.run (n.length + 136) s = .next { s with
      script := rest, rxq := later, blk := b, blkW := true, blkc := c, blkcW := true, idx := 128, pb := p,
      crcrx := h ++ l, crcrxW := true, crcreg := crc16 p, pbv := false, fsm := .waitHeader, txh := some 0x15 }

/-- R177, last sentence: noise and then 0x04 end the command with `RES = 2`, whatever follows, and nothing is sent. -/
def Obligations.EndOfTransmissionEndsTheCommand : Prop :=
  ∀ (s : State) (n later : List Byte) (rest : List Event),
    s.cfg.Admitted → FaultFree s → s.cmd = some (tableWord .pktRecv) → s.fsm = .idle →
    (∀ x ∈ n, x ≠ SOH ∧ x ≠ EOT) → s.rxq = n ++ EOT :: later →
    s.script = blocks (n.length + 2) ++ rest →
    core.run (n.length + 2) s = .next { s with
      script := rest, rxq := later, idx := 0, pbv := false, fsm := .idle, res := 2, resW := true, cmd := none }

/-- R178: at VALIDATE, a packet that differs from a well-formed one in exactly one bit of its payload, of its checksum
or of its block-number pair goes to SEND_NAK and is not accepted. -/
def Obligations.SingleBitCorruptionIsRejected : Prop :=
  ∀ s : State, s.fsm = .validate → crc16 s.pb = s.crcrx → s.blk.toNat + s.blkc.toNat = 255 →
    (∀ (i : Fin 128) (k : Fin 8), ∃ t,
      exec .pktRecv { s with pb := s.pb.set i.val (s.pb[i] ^^^ (1#8 <<< k.val)) i.isLt } = .next t ∧
      t.fsm = .sendNak ∧ t.cmd = s.cmd ∧ t.pbv = s.pbv) ∧
    (∀ k : Fin 16, ∃ t, exec .pktRecv { s with crcrx := s.crcrx ^^^ (1#16 <<< k.val) } = .next t ∧
      t.fsm = .sendNak ∧ t.cmd = s.cmd ∧ t.pbv = s.pbv) ∧
    (∀ k : Fin 8, ∃ t, exec .pktRecv { s with blk := s.blk ^^^ (1#8 <<< k.val) } = .next t ∧
      t.fsm = .sendNak ∧ t.cmd = s.cmd ∧ t.pbv = s.pbv) ∧
    (∀ k : Fin 8, ∃ t, exec .pktRecv { s with blkc := s.blkc ^^^ (1#8 <<< k.val) } = .next t ∧
      t.fsm = .sendNak ∧ t.cmd = s.cmd ∧ t.pbv = s.pbv)

/-- The frame of PKT.RECV and of the header bytes, in every state and form: the framer's own registers, `RXQ`, `TXH`
(for the reject), `CRCREG`, `RES` and `CMD` may change, with their marks, and nothing else: no memory, no writer
register, no latch, no status of the line (R166 to R175). -/
def Obligations.FramerFrame : Prop :=
  ∀ (i : Instr) (s t : State), (i = .pktRecv ∨ i.space = .wire) → exec i s = .next t →
    { t with
      rxq := s.rxq, txh := s.txh, crcreg := s.crcreg, fsm := s.fsm, blk := s.blk, blkc := s.blkc, crcrx := s.crcrx,
      idx := s.idx, pb := s.pb, pbv := s.pbv, cmd := s.cmd, res := s.res, resW := s.resW, blkW := s.blkW,
      blkcW := s.blkcW, crcrxW := s.crcrxW } = s

/-! ## Program-Memory Writer -/

/-- R200, R265: NVM.WRBLK's first step: PB_INVALID before CURSOR_RANGE, and staging otherwise. -/
def Obligations.WriteChecksThenStages : Prop :=
  ∀ s : State, s.wseq = .idle →
    (s.pbv = false → exec .nvmWrblk s = .next { s with fault := .pbInvalid, faultRec := .word 0x3000 }) ∧
    (s.pbv = true → s.cfg.flashSize < s.cursor + 128 →
      exec .nvmWrblk s = .next { s with fault := .cursorRange, faultRec := .wordCursor 0x3000 s.cursor }) ∧
    (s.pbv = true → s.cursor + 128 ≤ s.cfg.flashSize →
      exec .nvmWrblk s = .next { s with widx := 0, wseq := .stage })

/-- R201, R43: one byte is staged in its page-buffer slot. -/
def Obligations.StagingFillsThePageBuffer : Prop :=
  ∀ (s : State) (h : s.widx < 128), s.wseq = .stage →
    exec .nvmWrblk s = .next { s with
      pgbuf := s.pgbuf.set ((s.cursor + s.widx) % s.cfg.pageSize) s.pb[s.widx],
      paddr := (s.cursor + s.widx) - (s.cursor + s.widx) % s.cfg.pageSize,
      acc := s.acc + 1, widx := s.widx + 1,
      wseq := if s.acc + 1 = s.cfg.pageSize then .commit
              else if s.widx + 1 = 128 then .verify else .stage }

/-- R202, R79: W_COMMIT issues the commit of the staged page, holds while it is in progress, and then goes on to the
next page, or to the verify after the last byte. The commit is not yet issued where `ACC` is not 0 (log entry 10). -/
def Obligations.CommitIssuesHoldsAndGoesOn : Prop :=
  ∀ s : State, s.wseq = .commit →
    (s.nvmBusy = false → s.acc ≠ 0 →
      exec .nvmWrblk s = .next { s with
        acc := 0, pending := some (.flash s.paddr s.pgbuf), nvmBusy := true }) ∧
    (s.nvmBusy = true → exec .nvmWrblk s = .next s) ∧
    (s.nvmBusy = false → s.acc = 0 →
      exec .nvmWrblk s = .next { s with wseq := if s.widx = 128 then .verify else .stage })

/-- R203 to R205: the verify compares the 128 bytes at `CURSOR` with `PB`; a match advances `CURSOR` by 128 with
`RES = 1` and `VFY = 1`, a mismatch leaves it with `RES = 0` and `VFY = 0`; the command ends either way. -/
def Obligations.VerifyDecidesTheResult : Prop :=
  ∀ s : State, s.wseq = .verify → s.cursor + 128 ≤ s.cfg.flashSize →
    ((∀ i : Fin 128, flashByte (s.cursor + i) s = s.pb[i]) →
      exec .nvmWrblk s = .next { s with
        vfy := true, cursor := s.cursor + 128, res := 1, resW := true, wseq := .idle, cmd := none }) ∧
    ((∃ i : Fin 128, flashByte (s.cursor + i) s ≠ s.pb[i]) →
      exec .nvmWrblk s = .next { s with vfy := false, res := 0, resW := true, wseq := .idle, cmd := none })

/-- R210: NVM.FLAG holds while a commit is pending, then issues the flag write, holds until it is complete, and ends. -/
def Obligations.FlagWriteIssuesHoldsAndEnds : Prop :=
  ∀ s : State,
    (s.wseq = .idle → s.nvmBusy = false →
      exec .nvmFlag s = .next { s with
        pending := some (.ee s.cfg.flagAddr s.cfg.programmedMarker), nvmBusy := true, wseq := .flag }) ∧
    (s.wseq ∈ [.idle, .flag] → s.nvmBusy = true → exec .nvmFlag s = .next s) ∧
    (s.wseq = .flag → s.nvmBusy = false → exec .nvmFlag s = .next { s with wseq := .idle, cmd := none })

/-- The frame of NVM.WRBLK and NVM.FLAG, in every state and form (R200 to R205, R213). NVM.FLAG touches `CMD`, `WSEQ`
and the commit it issues; NVM.WRBLK those, the writer's registers, `CURSOR`, `RES`, and the fault it may raise. -/
def Obligations.WriterFrame : Prop :=
  ∀ s t : State,
    (exec .nvmFlag s = .next t →
      { t with cmd := s.cmd, wseq := s.wseq, pending := s.pending, nvmBusy := s.nvmBusy } = s) ∧
    (exec .nvmWrblk s = .next t →
      { t with
        cmd := s.cmd, wseq := s.wseq, pending := s.pending, nvmBusy := s.nvmBusy, widx := s.widx, acc := s.acc,
        pgbuf := s.pgbuf, paddr := s.paddr, vfy := s.vfy, cursor := s.cursor, res := s.res, resW := s.resW,
        fault := s.fault, faultRec := s.faultRec } = s)

/-- R70, R75: no command of the block changes a byte of FLASH or of EE; they change only at NVM's step. Every byte, of
every command, in every state. -/
def Obligations.CommandsLeaveTheMemories : Prop :=
  ∀ (i : Instr) (s t : State), exec i s = .next t →
    (∀ a, flashByte a t = flashByte a s) ∧ (∀ a, eeByte a t = eeByte a s)

/-- R80, R81: NVM's completion of a page commit, for every draw: the page holds the drawn bytes and, where the draw
ends, the committed ones; every other byte of FLASH, and EE, is as before; the page buffer is erased. -/
def Obligations.CompletionWritesOnePage : Prop :=
  ∀ (s : State) (rest : List Event) (draw data : List Byte) (page : Nat),
    Scheduled (.nvm draw) rest s → s.nvmBusy = true → s.pending = some (.flash page data) →
    page + data.length ≤ s.cfg.flashSize →
    ∃ t, step s = .next t ∧
      (∀ j, j < data.length → flashByte (page + j) t = (draw[j]?).getD (data[j]?.getD 0)) ∧
      (∀ a, a < page ∨ page + data.length ≤ a → flashByte a t = flashByte a s) ∧
      { t with flash := s.flash, pgbuf := s.pgbuf, pending := s.pending, nvmBusy := s.nvmBusy,
               script := s.script } = s ∧
      t.pgbuf = List.replicate s.cfg.pageSize 0xFF ∧ t.pending = none ∧ t.nvmBusy = false ∧ t.script = rest

/-- R80, R81, R213: NVM's completion of a flag write, for every draw: the one byte holds the drawn byte, or the
written one under the nominal oracle; nothing else of EE, FLASH or the page buffer changes. -/
def Obligations.CompletionWritesTheFlagByte : Prop :=
  ∀ (s : State) (rest : List Event) (draw : List Byte) (addr : Nat) (v : Byte),
    Scheduled (.nvm draw) rest s → s.nvmBusy = true → s.pending = some (.ee addr v) → addr < s.cfg.eepromSize →
    ∃ t, step s = .next t ∧
      eeByte addr t = draw.head?.getD v ∧ (∀ a, a ≠ addr → eeByte a t = eeByte a s) ∧
      { t with ee := s.ee, pending := s.pending, nvmBusy := s.nvmBusy, script := s.script } = s ∧
      t.pending = none ∧ t.nvmBusy = false ∧ t.script = rest

/-- R200 to R206, R209: a whole NVM.WRBLK under the nominal oracle, for every admitted page size: the block is in
FLASH at the cursor, verified, and the cursor moves by 128. The whole end state is given; the schedule holds exactly
`128 / PAGE_SIZE` completions. -/
def Obligations.NominalWriteBlock : Prop :=
  ∀ (s : State) (rest : List Event),
    s.cfg.Admitted → FaultFree s → s.cmd = some (tableWord .nvmWrblk) → s.wseq = .idle → s.pbv = true →
    s.cursor + 128 ≤ s.cfg.flashSize → s.cursor % s.cfg.pageSize = 0 → s.acc = 0 → s.nvmBusy = false →
    s.pending = none → s.pgbuf.length = s.cfg.pageSize →
    s.script = writeSchedule s.cfg ++ rest →
    (writeSchedule s.cfg).count (.nvm []) = 128 / s.cfg.pageSize ∧
    core.run (writeSchedule s.cfg).length s = .next { s with
      script := rest, flash := s.flash.writeBytes s.cursor s.pb.toList, pgbuf := List.replicate s.cfg.pageSize 0xFF,
      paddr := s.cursor + 128 - s.cfg.pageSize, widx := 128, vfy := true, cursor := s.cursor + 128,
      res := 1, resW := true, wseq := .idle, cmd := none }

/-- R210, R212, R213: a whole NVM.FLAG under the nominal oracle leaves the marker at `FLAG_ADDR`; nothing else but
`CMD` and the model's script changes. -/
def Obligations.NominalFlagWrite : Prop :=
  ∀ (s : State) (rest : List Event),
    s.cfg.Admitted → FaultFree s → s.cmd = some (tableWord .nvmFlag) → s.wseq = .idle → s.nvmBusy = false →
    s.pending = none → s.script = [.block, .nvm [], .block] ++ rest →
    ∃ t, core.run 3 s = .next t ∧ eeByte s.cfg.flagAddr t = s.cfg.programmedMarker ∧
      (∀ a, a ≠ s.cfg.flagAddr → eeByte a t = eeByte a s) ∧
      { t with script := s.script, ee := s.ee, cmd := s.cmd } = s ∧ t.cmd = none ∧ t.script = rest

/-! ## Invariants -/

/-- The invariant at power-up of every admitted configuration with any host program, and at `State.reset`. -/
def Obligations.InvariantAtPowerUp : Prop :=
  (∀ (c : Config) (prog : List HostStmt), c.Admitted → Inv (State.powerUp c prog)) ∧ Inv State.reset

/-- Every step of every agent keeps the invariant (R56, R47, R72, R75). -/
def Obligations.EveryStepKeepsTheInvariant : Prop :=
  ∀ s t : State, Inv s → step s = .next t → Inv t

/-- R56(a) to (d), between commands, read off the invariant. -/
def Obligations.BetweenCommands : Prop :=
  ∀ s : State, Inv s → s.cmd = none →
    (∃ k, s.cursor = s.cfg.appStart + 128 * k) ∧ s.cursor % s.cfg.pageSize = 0 ∧ s.acc = 0 ∧
    s.fsm = .idle ∧ s.wseq = .idle

/-- Under the invariant the model never stops for an address, an index or a sequencer state: its only fault is the
stop after a fault code was raised (R262, R263; for every agent by log entry 12), and its only refusals are those of
HOST's own requests: a read of a reserved register (R52) or of one that R55 and U6 refuse until it is written (log entry
6 says when that is), a command issued from the application (R242, U20; log entry 19) and a jump to APP_START with no
reset (R90, U20; log entry 20). The four log entries are DEDUCED. -/
def Obligations.NoStopButTheSpecsOwn : Prop :=
  ∀ s : State, Inv s →
    (∀ f, step s = .fault f → s.fault ≠ .none ∧ f = .stopped s.fault) ∧
    (∀ r, step s = .refused r →
      (∃ n, nextEvent s = .hostRead n ∧ (r = .reservedRegister n ∨ r = .unwrittenRegister n)) ∨
      (∃ w, nextEvent s = .issue w ∧ r = .issuedFromApplication w) ∨
      (∃ c d, nextEvent s = .host c d ∧ r = .jumpWithoutReset))

/-- R72: no step of any agent changes a byte of the engine region. -/
def Obligations.EngineRegionIsNeverWritten : Prop :=
  ∀ s t : State, Inv s → step s = .next t → ∀ a, a < s.cfg.appStart → flashByte a t = flashByte a s

/-- R41, R56(e): a step changes `CURSOR` only by a reset, to APP_START, or by NVM.WRBLK's verify that matched, by
exactly 128 with `VFY = 1` and `RES = 1`. In every state. -/
def Obligations.CursorMovesOnlyOnAVerifiedBlock : Prop :=
  ∀ s t : State, step s = .next t →
    t.cursor = s.cursor ∨
    (∃ r, t = deviceReset r (takeEvent s) ∧ t.cursor = s.cfg.appStart) ∨
    (s.cmd = some (tableWord .nvmWrblk) ∧ s.wseq = .verify ∧ verifyOk s = true ∧
      t.cursor = s.cursor + 128 ∧ t.vfy = true ∧ t.res = 1)

/-- Every step keeps both memories in canonical form, from every state in which they are (no other premise). -/
def Obligations.EveryStepKeepsMemoryCanonical : Prop :=
  ∀ s t : State, s.flash.wf → s.ee.wf → step s = .next t → t.flash.wf ∧ t.ee.wf

/-- R30, R57: no step changes the configuration or the host's program. -/
def Obligations.ConfigurationIsFixed : Prop :=
  ∀ s t : State, step s = .next t → t.cfg = s.cfg ∧ t.prog = s.prog

/-! ## Reset, host and register view -/

/-- R290, R55, R230: a device reset, at any step, with either draw of the byte in `TXH`. The values of the registers
R55 leaves unspecified are not in the statement; that a host read of RES, BLK, BLKC and CRCRX is refused until they are
written is (R55, U6), with the model's marks for it (log entry 6) and for an issued command (log entry 20). -/
def Obligations.DeviceResetState : Prop :=
  ∀ (s : State) (rest : List Event) (r : ResetDraw), Scheduled (.reset r) rest s →
    ∃ t, step s = .next t ∧
      t.rxq = [] ∧ t.txh = none ∧
      t.txlog = s.txlog ++ (if r.txDelivered then s.txh.toList else []) ∧
      t.armed = false ∧ t.act = false ∧ t.fsm = .idle ∧ t.idx = 0 ∧ t.pbv = false ∧ t.cursor = s.cfg.appStart ∧
      t.acc = 0 ∧ t.pgbuf = List.replicate s.cfg.pageSize 0xFF ∧ t.vfy = false ∧ t.cmd = none ∧ t.wseq = .idle ∧
      t.widx = 0 ∧ t.nvmBusy = false ∧ t.pending = none ∧
      t.hpc = .stmt 0 0 ∧ t.led = .off ∧ t.pullup = false ∧ t.mode = .boot ∧
      t.resW = false ∧ t.blkW = false ∧ t.blkcW = false ∧ t.crcrxW = false ∧ t.issued = false ∧
      (∀ n ∈ [0x01, 0x04, 0x05, 0x06], readRegister n t = .unwritten) ∧
      (s.nvmBusy = false → (∀ a, flashByte a t = flashByte a s) ∧ (∀ a, eeByte a t = eeByte a s))

/-- R83, R84: a device reset that cuts a commit changes at most the bytes being committed. -/
def Obligations.ResetCutsAtMostTheCommit : Prop :=
  ∀ (s : State) (r : ResetDraw),
    (∀ page data, s.pending = some (.flash page data) →
      (∀ a, a < page ∨ page + data.length ≤ a → flashByte a (deviceReset r s) = flashByte a s) ∧
      (∀ a, eeByte a (deviceReset r s) = eeByte a s)) ∧
    (∀ addr v, s.pending = some (.ee addr v) →
      (∀ a, flashByte a (deviceReset r s) = flashByte a s) ∧
      (∀ a, a ≠ addr → eeByte a (deviceReset r s) = eeByte a s))

/-- R292, which the spec infers from R290: a second reset with no step between changes nothing, whatever the draws. For
the registers R55 leaves unspecified the equality rests on the zeros the model writes there at every reset (log entry 5,
DESIGN CHOICE, unsafe). -/
def Obligations.ResetIsIdempotent : Prop :=
  ∀ (s : State) (r r' : ResetDraw), deviceReset r' (deviceReset r s) = deviceReset r s

/-- R241, R244: the Entry Decision, for every flag byte and every level of the control input: update mode where the
flag is erased or the input is actuated, else control at APP_START with no command issued. R241 has it at MODE = BOOT,
before any command (R240): there it transfers, and where the reset is not the last thing HOST did the transfer is
refused (R90, U20). When that is, and that update mode is entered in any MODE, is log entry 20 (DEDUCED, and DESIGN
CHOICE for the latter); that ENTRY is met at all after a command is log entry 33 (DESIGN CHOICE). -/
def Obligations.EntryDecisionChoosesThePath : Prop :=
  ∀ (s : State) (rest : List Event) (ctrl : Bool) (r : ResetDraw) (n : Nat),
    Scheduled (.host ctrl r) rest s → s.cmd = none → s.hpc = .stmt n 0 → s.prog[n]? = some .entry →
    (eeByte s.cfg.flagAddr s = 0xFF ∨ ctrl = s.cfg.ctrlActive →
      step s = .next { s with script := rest, pullup := true, mode := .update, hpc := .stmt (n + 1) 0 }) ∧
    (eeByte s.cfg.flagAddr s ≠ 0xFF ∧ ctrl ≠ s.cfg.ctrlActive → s.mode = .boot ∧ s.issued = false →
      step s = .next { s with script := rest, pullup := true, mode := .app, hpc := .app s.cfg.appStart }) ∧
    (eeByte s.cfg.flagAddr s ≠ 0xFF ∧ ctrl ≠ s.cfg.ctrlActive → ¬ (s.mode = .boot ∧ s.issued = false) →
      step s = .refused .jumpWithoutReset)

/-- R243: with the flag programmed and the input never actuated, every boot of the reference host, over any number of
resets (at least one, each with any draws), ends in the application. The whole end state is given: after the first
reset nothing changes from boot to boot, and no command is in progress after any of them. R243 is the spec's own
inference, and a boot is one HOST step by the model's grain (log entry 16, DESIGN CHOICE), so the statement is derived. -/
def Obligations.EntryDecisionIsIdempotent : Prop :=
  ∀ (d : ResetDraw × ResetDraw) (ds : List (ResetDraw × ResetDraw)) (s : State) (rest : List Event),
    s.cfg.Admitted → FaultFree s → s.prog = referenceProgram s.cfg → s.nvmBusy = false →
    eeByte s.cfg.flagAddr s ≠ 0xFF →
    s.script = ((d :: ds).flatMap fun p => [.reset p.1, .host (!s.cfg.ctrlActive) p.2]) ++ rest →
    core.run (2 * (ds.length + 1)) s = .next { deviceReset d.1 s with
      script := rest, pullup := true, mode := .app, hpc := .app s.cfg.appStart }

/-- R250, R105: what each statement of the host's program does when HOST steps at it; ENTRY is
`EntryDecisionChoosesThePath`. The grain of a statement is the model's (log entry 16), as are the free value that JEQ
compares where nothing wrote `RES` (log entry 31), when a jump lacks its reset (log entry 20), MODE = APP after a JMP.APP
(log entry 32, unsafe) and a command before ENTRY (log entry 33), so it is derived. -/
def Obligations.HostStatements : Prop :=
  ∀ (s : State) (rest : List Event) (ctrl : Bool) (r : ResetDraw) (n k : Nat),
    Scheduled (.host ctrl r) rest s → s.cmd = none → s.hpc = .stmt n k →
    (∀ w i, s.prog[n]? = some (.command w) → decodeCmd w = .ok i →
      step s = .next { s with script := rest, cmd := some w, hpc := .stmt (n + 1) 0, issued := true }) ∧
    (∀ w e, s.prog[n]? = some (.command w) → decodeCmd w = .error e →
      step s = .next { s with script := rest, fault := .illegalCmd, faultRec := .word w }) ∧
    (s.prog[n]? = some .jmpApp → s.mode = .boot ∧ s.issued = false →
      step s = .next { s with script := rest, mode := .app, hpc := .app s.cfg.appStart }) ∧
    (s.prog[n]? = some .jmpApp → ¬ (s.mode = .boot ∧ s.issued = false) →
      step s = .refused .jumpWithoutReset) ∧
    (∀ m, s.prog[n]? = some (.jmp m) → step s = .next { s with script := rest, hpc := .stmt m 0 }) ∧
    (∀ imm m, s.prog[n]? = some (.jeqRes imm m) → s.resW = true →
      step s = .next { s with script := rest, hpc := .stmt (if s.res = imm then m else n + 1) 0 }) ∧
    (∀ imm m, s.prog[n]? = some (.jeqRes imm m) → s.resW = false →
      step s = .next { s with
        script := rest, hpc := .stmt (if Config.unwrittenRes = imm then m else n + 1) 0 }) ∧
    (s.prog[n]? = some .ledToggle →
      step s = .next { s with script := rest, hpc := .stmt (n + 1) 0,
                              led := if s.led = .on then .off else .on }) ∧
    (s.prog[n]? = some .ledOn → step s = .next { s with script := rest, hpc := .stmt (n + 1) 0, led := .on }) ∧
    (s.prog[n]? = some .waitCtrl →
      step s = .next { s with script := rest, pullup := true,
                              hpc := if ctrl = s.cfg.ctrlActive then .stmt n k else .stmt (n + 1) 0 }) ∧
    (s.prog[n]? = some .reset → step s = .next (deviceReset r { s with script := rest })) ∧
    (∀ cnt m, s.prog[n]? = some (.poll cnt m) →
      (k ≠ 0 → s.res = 1 → step s = .next { s with script := rest, hpc := .stmt m 0 }) ∧
      (k = 0 ∨ s.res ≠ 1 → k < cnt →
        step s = .next { s with
          script := rest, cmd := some (tableWord .actProbe), hpc := .stmt n (k + 1), issued := true }) ∧
      (k = 0 ∨ s.res ≠ 1 → cnt ≤ k → step s = .next { s with script := rest, hpc := .stmt (n + 1) 0 }))

/-- R234, R207: after NVM.WRBLK the reference host issues TX.SEND ACK where the block verified and TX.SEND NAK where it
did not. -/
def Obligations.AcknowledgeAfterProgramming : Prop :=
  ∀ (s : State) (rest : List Event) (c1 c2 : Bool) (r1 r2 : ResetDraw),
    s.cfg.Admitted → FaultFree s → s.prog = referenceProgram s.cfg → s.cmd = none → s.hpc = .stmt 10 0 →
    s.resW = true → s.script = [.host c1 r1, .host c2 r2] ++ rest →
    ∃ n, core.run 2 s = .next { s with
      script := rest, hpc := .stmt n 0, issued := true,
      cmd := some (if s.res = 1 then tableWord (.txSend ACK) else tableWord (.txSend NAK)) }

/-- R246: the application's re-entry request writes 0xFF through NVM and then resets the device: under the nominal
oracle the flag is erased and the host is at its Entry Decision. -/
def Obligations.AppRequestErasesTheFlag : Prop :=
  ∀ (s : State) (rest : List Event) (r1 r2 : ResetDraw) (entry : Nat),
    s.cfg.Admitted → FaultFree s → s.hpc = .app entry → s.nvmBusy = false →
    s.script = [.app r1, .nvm [], .app r2] ++ rest →
    ∃ t, core.run 3 s = .next t ∧ eeByte s.cfg.flagAddr t = 0xFF ∧
      (∀ a, a ≠ s.cfg.flagAddr → eeByte a t = eeByte a s) ∧ (∀ a, flashByte a t = flashByte a s) ∧
      t.hpc = .stmt 0 0 ∧ t.mode = .boot ∧ t.cmd = none

/-- R51: STATUS, bit by bit. -/
def Obligations.StatusBits : Prop :=
  ∀ s : State,
    s.status.getLsbD 0 = s.txh.isNone ∧ s.status.getLsbD 1 = !s.rxq.isEmpty ∧ s.status.getLsbD 2 = s.act ∧
    s.status.getLsbD 3 = s.armed ∧ s.status.getLsbD 4 = s.pbv ∧ s.status.getLsbD 5 = s.vfy ∧
    s.status.getLsbD 6 = s.nvmBusy ∧ s.status.getLsbD 7 = s.cmd.isSome ∧
    s.status.getLsbD 8 = (s.fault != .none) ∧ (∀ i, 9 ≤ i → s.status.getLsbD i = false)

/-- R50, R52, R55, R40: the register view, every number of it, and what a host read of it does: a reserved number is
refused, `PB[i]` outside its window raises PB_INVALID with the register number recorded, a register nothing has
written since reset is refused (R55, U6), and any other read changes nothing but the model's script. The statement is
derived: from which step on a register counts as written is log entry 6 (DEDUCED), and that CURSOR is shown whole, in
more than ADDR_BITS bits where it needs them, is log entry 14 (DEDUCED, unsafe). The clauses about the step hold for
every position of the host; that a read is a step, and can raise PB_INVALID, also after control has passed to the
application is log entry 29 (DESIGN CHOICE). -/
def Obligations.HostReads : Prop :=
  ∀ (s : State) (n : Nat),
    (n = 0x00 → readRegister n s = .value s.status.toNat) ∧
    (n = 0x01 → readRegister n s = if s.resW then .value s.res.toNat else .unwritten) ∧
    (n = 0x02 → readRegister n s = .value s.cursor) ∧
    (n = 0x03 → readRegister n s = .value s.acc) ∧
    (n = 0x04 → readRegister n s = if s.blkW then .value s.blk.toNat else .unwritten) ∧
    (n = 0x05 → readRegister n s = if s.blkcW then .value s.blkc.toNat else .unwritten) ∧
    (n = 0x06 → readRegister n s = if s.crcrxW then .value s.crcrx.toNat else .unwritten) ∧
    (n = 0x07 → readRegister n s = .value s.fault.code.toNat) ∧
    (n = 0x08 → readRegister n s = .value s.fsm.code) ∧
    (n = 0x09 → readRegister n s = .value s.idx) ∧
    (n = 0x0A → readRegister n s = .value s.wseq.code) ∧
    ((0x0B ≤ n ∧ n ≤ 0x7F) ∨ 0xFF < n → readRegister n s = .reserved) ∧
    (∀ i : Fin 128, n = 0x80 + i → readRegister n s = if s.pbv then .value s.pb[i].toNat else .pbInvalid) ∧
    (∀ rest, Scheduled (.hostRead n) rest s →
      (∀ v, readRegister n s = .value v → step s = .next { s with script := rest }) ∧
      (readRegister n s = .pbInvalid →
        step s = .next { s with script := rest, fault := .pbInvalid, faultRec := .register n }) ∧
      (readRegister n s = .reserved → step s = .refused (.reservedRegister n)) ∧
      (readRegister n s = .unwritten → step s = .refused (.unwrittenRegister n)))

/-- R90, R307: code the block wrote runs only after a reset. Control passes to APP_START only where the reset is the last
thing HOST did; only a reset leads there; and there no command runs, every commit has completed, and no step before a
command is issued changes a byte of FLASH or EE. That MODE = BOOT and no issued command say so is log entry 20
(DEDUCED), and MODE = APP after a JMP.APP of its own is log entry 32 (DESIGN CHOICE, unsafe). The first two clauses hold in every state. -/
def Obligations.WrittenCodeRunsOnlyAfterAReset : Prop :=
  (∀ s t : State, step s = .next t → (∃ e, t.hpc = .app e) → (∀ e, s.hpc ≠ .app e) →
    s.mode = .boot ∧ s.issued = false ∧ t.hpc = .app s.cfg.appStart ∧ t.mode = .app) ∧
  (∀ s t : State, step s = .next t → t.mode = .boot ∧ t.issued = false →
    (s.mode = .boot ∧ s.issued = false) ∨ ∃ r, t = deviceReset r (takeEvent s)) ∧
  (∀ s t : State, Inv s → (∃ n k, s.hpc = .stmt n k) → s.issued = false → step s = .next t →
    s.cmd = none ∧ s.nvmBusy = false ∧ s.pending = none ∧
    (∀ a, flashByte a t = flashByte a s) ∧ (∀ a, eeByte a t = eeByte a s))
end

