-- ==== Sys2Proof/Laws/Memory.lean ====
section
/-! SUPPORT. The laws of the byte memory: a read after a write, other addresses, the canonical form, and the same for
a run of bytes. -/

namespace Sys2Proof.Machine

@[simp] theorem Memory.read_nil (a : Nat) : Memory.read [] a = none := rfl

/-- A read after a write to the same address gives the byte written. -/
@[simp] theorem Memory.read_write_same (m : Memory) (a : Nat) (b : Byte) : (m.write a b).read a = some b := by
  induction m with
  | nil => simp [Memory.write, Memory.read]
  | cons c m ih =>
    obtain ⟨k, v⟩ := c
    simp only [Memory.write]
    split
    · simp [Memory.read]
    · split
      · simp [Memory.read]
      · simp only [Memory.read]
        rw [if_neg (by assumption), if_neg (by assumption)]
        exact ih

/-- A write leaves every other address as it was. -/
theorem Memory.read_write_other (m : Memory) {a a' : Nat} (b : Byte) (h : a' ≠ a) :
    (m.write a b).read a' = m.read a' := by
  induction m with
  | nil => simp [Memory.write, Memory.read, h.symm]
  | cons c m ih =>
    obtain ⟨k, v⟩ := c
    simp only [Memory.write]
    split
    · rename_i hk
      simp only [Memory.read, if_neg h.symm]
      split
      · rw [if_neg (by omega), if_pos (by omega)]
      · rfl
    · split
      · rename_i hk
        subst hk
        simp [Memory.read, h.symm]
      · simp only [Memory.read, ih]

/-- Every entry after a write is the one written or an earlier one. -/
theorem Memory.mem_write {m : Memory} {a : Nat} {b : Byte} {c : Host.Cell} (h : c ∈ m.write a b) :
    c = (a, b) ∨ c ∈ m := by
  induction m with
  | nil => simpa [Memory.write] using h
  | cons d m ih =>
    obtain ⟨k, v⟩ := d
    simp only [Memory.write] at h
    split at h
    · simpa using h
    · split at h
      · simp only [List.mem_cons] at h ⊢
        exact h.imp id .inr
      · simp only [List.mem_cons] at h ⊢
        rcases h with h | h
        · exact .inr (.inl h)
        · exact (ih h).imp id .inr

/-- A write keeps the canonical form. -/
theorem Memory.write_wf {m : Memory} (a : Nat) (b : Byte) (h : m.wf) : (m.write a b).wf := by
  induction m with
  | nil => simp [Memory.write]
  | cons c m ih =>
    obtain ⟨k, v⟩ := c
    have ⟨hk, hm⟩ := List.pairwise_cons.mp h
    simp only [Memory.write]
    split
    · rename_i hak
      refine List.pairwise_cons.mpr ⟨fun x hx => ?_, h⟩
      rcases List.mem_cons.mp hx with rfl | hx
      · exact hak
      · exact Nat.lt_trans hak (hk x hx)
    · split
      · rename_i hka
        subst hka
        exact List.pairwise_cons.mpr ⟨hk, hm⟩
      · refine List.pairwise_cons.mpr ⟨fun x hx => ?_, ih hm⟩
        rcases Memory.mem_write hx with rfl | hx
        · show k < a
          omega
        · exact hk x hx

/-- A run of writes keeps the canonical form. -/
theorem Memory.writeBytes_wf {m : Memory} (a : Nat) (bs : List Byte) (h : m.wf) : (m.writeBytes a bs).wf := by
  induction bs generalizing m a with
  | nil => exact h
  | cons b bs ih => exact ih (a + 1) (Memory.write_wf a b h)

/-- A run of writes leaves every address outside it as it was. -/
theorem Memory.read_writeBytes_outside (m : Memory) {a a' : Nat} (bs : List Byte)
    (h : a' < a ∨ a + bs.length ≤ a') : (m.writeBytes a bs).read a' = m.read a' := by
  induction bs generalizing m a with
  | nil => rfl
  | cons b bs ih =>
    rw [List.length_cons] at h
    rw [Memory.writeBytes, ih _ (by omega), Memory.read_write_other _ _ (by omega)]

/-- A run of writes puts its bytes in order from its first address. -/
theorem Memory.read_writeBytes (m : Memory) (a : Nat) (bs : List Byte) {j : Nat} (h : j < bs.length) :
    (m.writeBytes a bs).read (a + j) = some bs[j] := by
  induction bs generalizing m a j with
  | nil => simp at h
  | cons b bs ih =>
    rw [Memory.writeBytes]
    cases j with
    | zero => rw [Memory.read_writeBytes_outside _ _ (by omega)]; simp
    | succ j =>
      rw [show a + (j + 1) = a + 1 + j by omega, ih _ _ (by simpa using h)]
      simp

/-- Two runs of writes, one after the other, are one. -/
theorem Memory.writeBytes_append (m : Memory) (a : Nat) (xs ys : List Byte) :
    m.writeBytes a (xs ++ ys) = (m.writeBytes a xs).writeBytes (a + xs.length) ys := by
  induction xs generalizing m a with
  | nil => rfl
  | cons x xs ih =>
    simp only [List.cons_append, Memory.writeBytes, ih, List.length_cons]
    congr 1
    omega

/-- Every entry after a run of writes lies in the run or is an earlier one. -/
theorem Memory.mem_writeBytes {m : Memory} {a : Nat} {bs : List Byte} {c : Host.Cell}
    (h : c ∈ m.writeBytes a bs) : (a ≤ c.1 ∧ c.1 < a + bs.length) ∨ c ∈ m := by
  induction bs generalizing m a with
  | nil => exact .inr h
  | cons b bs ih =>
    rcases ih h with h | h
    · simp only [List.length_cons]; exact .inl (by omega)
    · rcases Memory.mem_write h with rfl | h
      · exact .inl (by simp)
      · exact .inr h

/-- The memories right after reset are in canonical form. -/
theorem reset_memories_wf : State.reset.flash.wf ∧ State.reset.ee.wf := by decide

/-- The nominal oracle leaves what was committed (R81). -/
@[simp] theorem oracleBytes_nominal (buf : List Byte) : oracleBytes [] buf = buf := by simp [oracleBytes]

@[simp] theorem oracleBytes_length (draw buf : List Byte) : (oracleBytes draw buf).length = buf.length := by
  simp [oracleBytes]; omega

/-- Position `j` of what an oracle draw leaves: the drawn byte, or nominal where the draw has ended (R81). -/
theorem oracleBytes_get (draw buf : List Byte) {j : Nat} (h : j < buf.length) :
    (oracleBytes draw buf)[j]? = some ((draw[j]?).getD (buf[j]?.getD 0)) := by
  unfold oracleBytes
  by_cases hj : j < draw.length
  · rw [List.getElem?_append_left (by simp; omega), List.getElem?_take_of_lt h]
    simp [List.getElem?_eq_getElem hj]
  · rw [List.getElem?_append_right (by simp; omega)]
    simp only [List.length_take, List.getElem?_drop]
    rw [show draw.length + (j - min buf.length draw.length) = j by omega]
    simp [List.getElem?_eq_none (Nat.le_of_not_lt hj), List.getElem?_eq_getElem h]

end Sys2Proof.Machine
end

