-- ==== Sys2Proof/Laws/State.lean ====
section
/-! SUPPORT. One lemma per field for each named update of the state, true by unfolding it once, so that no later proof
unfolds a record update. -/

namespace Sys2Proof.Machine

/-! ### raiseFault -/

@[simp] theorem raiseFault_cfg (c : FaultCode) (r : FaultRecord) (s : State) : (raiseFault c r s).cfg = s.cfg := rfl
@[simp] theorem raiseFault_prog (c : FaultCode) (r : FaultRecord) (s : State) : (raiseFault c r s).prog = s.prog := rfl
@[simp] theorem raiseFault_script (c : FaultCode) (r : FaultRecord) (s : State) : (raiseFault c r s).script = s.script := rfl
@[simp] theorem raiseFault_tick (c : FaultCode) (r : FaultRecord) (s : State) : (raiseFault c r s).tick = s.tick := rfl
@[simp] theorem raiseFault_rxq (c : FaultCode) (r : FaultRecord) (s : State) : (raiseFault c r s).rxq = s.rxq := rfl
@[simp] theorem raiseFault_txh (c : FaultCode) (r : FaultRecord) (s : State) : (raiseFault c r s).txh = s.txh := rfl
@[simp] theorem raiseFault_txlog (c : FaultCode) (r : FaultRecord) (s : State) : (raiseFault c r s).txlog = s.txlog := rfl
@[simp] theorem raiseFault_armed (c : FaultCode) (r : FaultRecord) (s : State) : (raiseFault c r s).armed = s.armed := rfl
@[simp] theorem raiseFault_act (c : FaultCode) (r : FaultRecord) (s : State) : (raiseFault c r s).act = s.act := rfl
@[simp] theorem raiseFault_crcreg (c : FaultCode) (r : FaultRecord) (s : State) : (raiseFault c r s).crcreg = s.crcreg := rfl
@[simp] theorem raiseFault_fsm (c : FaultCode) (r : FaultRecord) (s : State) : (raiseFault c r s).fsm = s.fsm := rfl
@[simp] theorem raiseFault_blk (c : FaultCode) (r : FaultRecord) (s : State) : (raiseFault c r s).blk = s.blk := rfl
@[simp] theorem raiseFault_blkc (c : FaultCode) (r : FaultRecord) (s : State) : (raiseFault c r s).blkc = s.blkc := rfl
@[simp] theorem raiseFault_crcrx (c : FaultCode) (r : FaultRecord) (s : State) : (raiseFault c r s).crcrx = s.crcrx := rfl
@[simp] theorem raiseFault_idx (c : FaultCode) (r : FaultRecord) (s : State) : (raiseFault c r s).idx = s.idx := rfl
@[simp] theorem raiseFault_pb (c : FaultCode) (r : FaultRecord) (s : State) : (raiseFault c r s).pb = s.pb := rfl
@[simp] theorem raiseFault_pbv (c : FaultCode) (r : FaultRecord) (s : State) : (raiseFault c r s).pbv = s.pbv := rfl
@[simp] theorem raiseFault_cursor (c : FaultCode) (r : FaultRecord) (s : State) : (raiseFault c r s).cursor = s.cursor := rfl
@[simp] theorem raiseFault_acc (c : FaultCode) (r : FaultRecord) (s : State) : (raiseFault c r s).acc = s.acc := rfl
@[simp] theorem raiseFault_pgbuf (c : FaultCode) (r : FaultRecord) (s : State) : (raiseFault c r s).pgbuf = s.pgbuf := rfl
@[simp] theorem raiseFault_paddr (c : FaultCode) (r : FaultRecord) (s : State) : (raiseFault c r s).paddr = s.paddr := rfl
@[simp] theorem raiseFault_vfy (c : FaultCode) (r : FaultRecord) (s : State) : (raiseFault c r s).vfy = s.vfy := rfl
@[simp] theorem raiseFault_cmd (c : FaultCode) (r : FaultRecord) (s : State) : (raiseFault c r s).cmd = s.cmd := rfl
@[simp] theorem raiseFault_wseq (c : FaultCode) (r : FaultRecord) (s : State) : (raiseFault c r s).wseq = s.wseq := rfl
@[simp] theorem raiseFault_widx (c : FaultCode) (r : FaultRecord) (s : State) : (raiseFault c r s).widx = s.widx := rfl
@[simp] theorem raiseFault_nvmBusy (c : FaultCode) (r : FaultRecord) (s : State) : (raiseFault c r s).nvmBusy = s.nvmBusy := rfl
@[simp] theorem raiseFault_pending (c : FaultCode) (r : FaultRecord) (s : State) : (raiseFault c r s).pending = s.pending := rfl
@[simp] theorem raiseFault_res (c : FaultCode) (r : FaultRecord) (s : State) : (raiseFault c r s).res = s.res := rfl
@[simp] theorem raiseFault_fault (c : FaultCode) (r : FaultRecord) (s : State) : (raiseFault c r s).fault = c := rfl
@[simp] theorem raiseFault_faultRec (c : FaultCode) (r : FaultRecord) (s : State) : (raiseFault c r s).faultRec = r := rfl
@[simp] theorem raiseFault_flash (c : FaultCode) (r : FaultRecord) (s : State) : (raiseFault c r s).flash = s.flash := rfl
@[simp] theorem raiseFault_ee (c : FaultCode) (r : FaultRecord) (s : State) : (raiseFault c r s).ee = s.ee := rfl
@[simp] theorem raiseFault_hpc (c : FaultCode) (r : FaultRecord) (s : State) : (raiseFault c r s).hpc = s.hpc := rfl
@[simp] theorem raiseFault_led (c : FaultCode) (r : FaultRecord) (s : State) : (raiseFault c r s).led = s.led := rfl
@[simp] theorem raiseFault_pullup (c : FaultCode) (r : FaultRecord) (s : State) : (raiseFault c r s).pullup = s.pullup := rfl
@[simp] theorem raiseFault_mode (c : FaultCode) (r : FaultRecord) (s : State) : (raiseFault c r s).mode = s.mode := rfl
@[simp] theorem raiseFault_resW (c : FaultCode) (r : FaultRecord) (s : State) : (raiseFault c r s).resW = s.resW := rfl
@[simp] theorem raiseFault_blkW (c : FaultCode) (r : FaultRecord) (s : State) : (raiseFault c r s).blkW = s.blkW := rfl
@[simp] theorem raiseFault_blkcW (c : FaultCode) (r : FaultRecord) (s : State) : (raiseFault c r s).blkcW = s.blkcW := rfl
@[simp] theorem raiseFault_crcrxW (c : FaultCode) (r : FaultRecord) (s : State) : (raiseFault c r s).crcrxW = s.crcrxW := rfl
@[simp] theorem raiseFault_issued (c : FaultCode) (r : FaultRecord) (s : State) : (raiseFault c r s).issued = s.issued := rfl

/-! ### endCmd -/

@[simp] theorem endCmd_cfg (s : State) : (endCmd s).cfg = s.cfg := rfl
@[simp] theorem endCmd_prog (s : State) : (endCmd s).prog = s.prog := rfl
@[simp] theorem endCmd_script (s : State) : (endCmd s).script = s.script := rfl
@[simp] theorem endCmd_tick (s : State) : (endCmd s).tick = s.tick := rfl
@[simp] theorem endCmd_rxq (s : State) : (endCmd s).rxq = s.rxq := rfl
@[simp] theorem endCmd_txh (s : State) : (endCmd s).txh = s.txh := rfl
@[simp] theorem endCmd_txlog (s : State) : (endCmd s).txlog = s.txlog := rfl
@[simp] theorem endCmd_armed (s : State) : (endCmd s).armed = s.armed := rfl
@[simp] theorem endCmd_act (s : State) : (endCmd s).act = s.act := rfl
@[simp] theorem endCmd_crcreg (s : State) : (endCmd s).crcreg = s.crcreg := rfl
@[simp] theorem endCmd_fsm (s : State) : (endCmd s).fsm = s.fsm := rfl
@[simp] theorem endCmd_blk (s : State) : (endCmd s).blk = s.blk := rfl
@[simp] theorem endCmd_blkc (s : State) : (endCmd s).blkc = s.blkc := rfl
@[simp] theorem endCmd_crcrx (s : State) : (endCmd s).crcrx = s.crcrx := rfl
@[simp] theorem endCmd_idx (s : State) : (endCmd s).idx = s.idx := rfl
@[simp] theorem endCmd_pb (s : State) : (endCmd s).pb = s.pb := rfl
@[simp] theorem endCmd_pbv (s : State) : (endCmd s).pbv = s.pbv := rfl
@[simp] theorem endCmd_cursor (s : State) : (endCmd s).cursor = s.cursor := rfl
@[simp] theorem endCmd_acc (s : State) : (endCmd s).acc = s.acc := rfl
@[simp] theorem endCmd_pgbuf (s : State) : (endCmd s).pgbuf = s.pgbuf := rfl
@[simp] theorem endCmd_paddr (s : State) : (endCmd s).paddr = s.paddr := rfl
@[simp] theorem endCmd_vfy (s : State) : (endCmd s).vfy = s.vfy := rfl
@[simp] theorem endCmd_cmd (s : State) : (endCmd s).cmd = none := rfl
@[simp] theorem endCmd_wseq (s : State) : (endCmd s).wseq = s.wseq := rfl
@[simp] theorem endCmd_widx (s : State) : (endCmd s).widx = s.widx := rfl
@[simp] theorem endCmd_nvmBusy (s : State) : (endCmd s).nvmBusy = s.nvmBusy := rfl
@[simp] theorem endCmd_pending (s : State) : (endCmd s).pending = s.pending := rfl
@[simp] theorem endCmd_res (s : State) : (endCmd s).res = s.res := rfl
@[simp] theorem endCmd_fault (s : State) : (endCmd s).fault = s.fault := rfl
@[simp] theorem endCmd_faultRec (s : State) : (endCmd s).faultRec = s.faultRec := rfl
@[simp] theorem endCmd_flash (s : State) : (endCmd s).flash = s.flash := rfl
@[simp] theorem endCmd_ee (s : State) : (endCmd s).ee = s.ee := rfl
@[simp] theorem endCmd_hpc (s : State) : (endCmd s).hpc = s.hpc := rfl
@[simp] theorem endCmd_led (s : State) : (endCmd s).led = s.led := rfl
@[simp] theorem endCmd_pullup (s : State) : (endCmd s).pullup = s.pullup := rfl
@[simp] theorem endCmd_mode (s : State) : (endCmd s).mode = s.mode := rfl
@[simp] theorem endCmd_resW (s : State) : (endCmd s).resW = s.resW := rfl
@[simp] theorem endCmd_blkW (s : State) : (endCmd s).blkW = s.blkW := rfl
@[simp] theorem endCmd_blkcW (s : State) : (endCmd s).blkcW = s.blkcW := rfl
@[simp] theorem endCmd_crcrxW (s : State) : (endCmd s).crcrxW = s.crcrxW := rfl
@[simp] theorem endCmd_issued (s : State) : (endCmd s).issued = s.issued := rfl

/-! ### setRes -/

@[simp] theorem setRes_cfg (v : Word) (s : State) : (setRes v s).cfg = s.cfg := rfl
@[simp] theorem setRes_prog (v : Word) (s : State) : (setRes v s).prog = s.prog := rfl
@[simp] theorem setRes_script (v : Word) (s : State) : (setRes v s).script = s.script := rfl
@[simp] theorem setRes_tick (v : Word) (s : State) : (setRes v s).tick = s.tick := rfl
@[simp] theorem setRes_rxq (v : Word) (s : State) : (setRes v s).rxq = s.rxq := rfl
@[simp] theorem setRes_txh (v : Word) (s : State) : (setRes v s).txh = s.txh := rfl
@[simp] theorem setRes_txlog (v : Word) (s : State) : (setRes v s).txlog = s.txlog := rfl
@[simp] theorem setRes_armed (v : Word) (s : State) : (setRes v s).armed = s.armed := rfl
@[simp] theorem setRes_act (v : Word) (s : State) : (setRes v s).act = s.act := rfl
@[simp] theorem setRes_crcreg (v : Word) (s : State) : (setRes v s).crcreg = s.crcreg := rfl
@[simp] theorem setRes_fsm (v : Word) (s : State) : (setRes v s).fsm = s.fsm := rfl
@[simp] theorem setRes_blk (v : Word) (s : State) : (setRes v s).blk = s.blk := rfl
@[simp] theorem setRes_blkc (v : Word) (s : State) : (setRes v s).blkc = s.blkc := rfl
@[simp] theorem setRes_crcrx (v : Word) (s : State) : (setRes v s).crcrx = s.crcrx := rfl
@[simp] theorem setRes_idx (v : Word) (s : State) : (setRes v s).idx = s.idx := rfl
@[simp] theorem setRes_pb (v : Word) (s : State) : (setRes v s).pb = s.pb := rfl
@[simp] theorem setRes_pbv (v : Word) (s : State) : (setRes v s).pbv = s.pbv := rfl
@[simp] theorem setRes_cursor (v : Word) (s : State) : (setRes v s).cursor = s.cursor := rfl
@[simp] theorem setRes_acc (v : Word) (s : State) : (setRes v s).acc = s.acc := rfl
@[simp] theorem setRes_pgbuf (v : Word) (s : State) : (setRes v s).pgbuf = s.pgbuf := rfl
@[simp] theorem setRes_paddr (v : Word) (s : State) : (setRes v s).paddr = s.paddr := rfl
@[simp] theorem setRes_vfy (v : Word) (s : State) : (setRes v s).vfy = s.vfy := rfl
@[simp] theorem setRes_cmd (v : Word) (s : State) : (setRes v s).cmd = s.cmd := rfl
@[simp] theorem setRes_wseq (v : Word) (s : State) : (setRes v s).wseq = s.wseq := rfl
@[simp] theorem setRes_widx (v : Word) (s : State) : (setRes v s).widx = s.widx := rfl
@[simp] theorem setRes_nvmBusy (v : Word) (s : State) : (setRes v s).nvmBusy = s.nvmBusy := rfl
@[simp] theorem setRes_pending (v : Word) (s : State) : (setRes v s).pending = s.pending := rfl
@[simp] theorem setRes_res (v : Word) (s : State) : (setRes v s).res = v := rfl
@[simp] theorem setRes_fault (v : Word) (s : State) : (setRes v s).fault = s.fault := rfl
@[simp] theorem setRes_faultRec (v : Word) (s : State) : (setRes v s).faultRec = s.faultRec := rfl
@[simp] theorem setRes_flash (v : Word) (s : State) : (setRes v s).flash = s.flash := rfl
@[simp] theorem setRes_ee (v : Word) (s : State) : (setRes v s).ee = s.ee := rfl
@[simp] theorem setRes_hpc (v : Word) (s : State) : (setRes v s).hpc = s.hpc := rfl
@[simp] theorem setRes_led (v : Word) (s : State) : (setRes v s).led = s.led := rfl
@[simp] theorem setRes_pullup (v : Word) (s : State) : (setRes v s).pullup = s.pullup := rfl
@[simp] theorem setRes_mode (v : Word) (s : State) : (setRes v s).mode = s.mode := rfl
@[simp] theorem setRes_resW (v : Word) (s : State) : (setRes v s).resW = true := rfl
@[simp] theorem setRes_blkW (v : Word) (s : State) : (setRes v s).blkW = s.blkW := rfl
@[simp] theorem setRes_blkcW (v : Word) (s : State) : (setRes v s).blkcW = s.blkcW := rfl
@[simp] theorem setRes_crcrxW (v : Word) (s : State) : (setRes v s).crcrxW = s.crcrxW := rfl
@[simp] theorem setRes_issued (v : Word) (s : State) : (setRes v s).issued = s.issued := rfl

/-! ### startCommit -/

@[simp] theorem startCommit_cfg (c : Commit) (s : State) : (startCommit c s).cfg = s.cfg := rfl
@[simp] theorem startCommit_prog (c : Commit) (s : State) : (startCommit c s).prog = s.prog := rfl
@[simp] theorem startCommit_script (c : Commit) (s : State) : (startCommit c s).script = s.script := rfl
@[simp] theorem startCommit_tick (c : Commit) (s : State) : (startCommit c s).tick = s.tick := rfl
@[simp] theorem startCommit_rxq (c : Commit) (s : State) : (startCommit c s).rxq = s.rxq := rfl
@[simp] theorem startCommit_txh (c : Commit) (s : State) : (startCommit c s).txh = s.txh := rfl
@[simp] theorem startCommit_txlog (c : Commit) (s : State) : (startCommit c s).txlog = s.txlog := rfl
@[simp] theorem startCommit_armed (c : Commit) (s : State) : (startCommit c s).armed = s.armed := rfl
@[simp] theorem startCommit_act (c : Commit) (s : State) : (startCommit c s).act = s.act := rfl
@[simp] theorem startCommit_crcreg (c : Commit) (s : State) : (startCommit c s).crcreg = s.crcreg := rfl
@[simp] theorem startCommit_fsm (c : Commit) (s : State) : (startCommit c s).fsm = s.fsm := rfl
@[simp] theorem startCommit_blk (c : Commit) (s : State) : (startCommit c s).blk = s.blk := rfl
@[simp] theorem startCommit_blkc (c : Commit) (s : State) : (startCommit c s).blkc = s.blkc := rfl
@[simp] theorem startCommit_crcrx (c : Commit) (s : State) : (startCommit c s).crcrx = s.crcrx := rfl
@[simp] theorem startCommit_idx (c : Commit) (s : State) : (startCommit c s).idx = s.idx := rfl
@[simp] theorem startCommit_pb (c : Commit) (s : State) : (startCommit c s).pb = s.pb := rfl
@[simp] theorem startCommit_pbv (c : Commit) (s : State) : (startCommit c s).pbv = s.pbv := rfl
@[simp] theorem startCommit_cursor (c : Commit) (s : State) : (startCommit c s).cursor = s.cursor := rfl
@[simp] theorem startCommit_acc (c : Commit) (s : State) : (startCommit c s).acc = s.acc := rfl
@[simp] theorem startCommit_pgbuf (c : Commit) (s : State) : (startCommit c s).pgbuf = s.pgbuf := rfl
@[simp] theorem startCommit_paddr (c : Commit) (s : State) : (startCommit c s).paddr = s.paddr := rfl
@[simp] theorem startCommit_vfy (c : Commit) (s : State) : (startCommit c s).vfy = s.vfy := rfl
@[simp] theorem startCommit_cmd (c : Commit) (s : State) : (startCommit c s).cmd = s.cmd := rfl
@[simp] theorem startCommit_wseq (c : Commit) (s : State) : (startCommit c s).wseq = s.wseq := rfl
@[simp] theorem startCommit_widx (c : Commit) (s : State) : (startCommit c s).widx = s.widx := rfl
@[simp] theorem startCommit_nvmBusy (c : Commit) (s : State) : (startCommit c s).nvmBusy = true := rfl
@[simp] theorem startCommit_pending (c : Commit) (s : State) : (startCommit c s).pending = some c := rfl
@[simp] theorem startCommit_res (c : Commit) (s : State) : (startCommit c s).res = s.res := rfl
@[simp] theorem startCommit_fault (c : Commit) (s : State) : (startCommit c s).fault = s.fault := rfl
@[simp] theorem startCommit_faultRec (c : Commit) (s : State) : (startCommit c s).faultRec = s.faultRec := rfl
@[simp] theorem startCommit_flash (c : Commit) (s : State) : (startCommit c s).flash = s.flash := rfl
@[simp] theorem startCommit_ee (c : Commit) (s : State) : (startCommit c s).ee = s.ee := rfl
@[simp] theorem startCommit_hpc (c : Commit) (s : State) : (startCommit c s).hpc = s.hpc := rfl
@[simp] theorem startCommit_led (c : Commit) (s : State) : (startCommit c s).led = s.led := rfl
@[simp] theorem startCommit_pullup (c : Commit) (s : State) : (startCommit c s).pullup = s.pullup := rfl
@[simp] theorem startCommit_mode (c : Commit) (s : State) : (startCommit c s).mode = s.mode := rfl
@[simp] theorem startCommit_resW (c : Commit) (s : State) : (startCommit c s).resW = s.resW := rfl
@[simp] theorem startCommit_blkW (c : Commit) (s : State) : (startCommit c s).blkW = s.blkW := rfl
@[simp] theorem startCommit_blkcW (c : Commit) (s : State) : (startCommit c s).blkcW = s.blkcW := rfl
@[simp] theorem startCommit_crcrxW (c : Commit) (s : State) : (startCommit c s).crcrxW = s.crcrxW := rfl
@[simp] theorem startCommit_issued (c : Commit) (s : State) : (startCommit c s).issued = s.issued := rfl

/-! ### commitDone -/

@[simp] theorem commitDone_cfg (s : State) : (commitDone s).cfg = s.cfg := rfl
@[simp] theorem commitDone_prog (s : State) : (commitDone s).prog = s.prog := rfl
@[simp] theorem commitDone_script (s : State) : (commitDone s).script = s.script := rfl
@[simp] theorem commitDone_tick (s : State) : (commitDone s).tick = s.tick := rfl
@[simp] theorem commitDone_rxq (s : State) : (commitDone s).rxq = s.rxq := rfl
@[simp] theorem commitDone_txh (s : State) : (commitDone s).txh = s.txh := rfl
@[simp] theorem commitDone_txlog (s : State) : (commitDone s).txlog = s.txlog := rfl
@[simp] theorem commitDone_armed (s : State) : (commitDone s).armed = s.armed := rfl
@[simp] theorem commitDone_act (s : State) : (commitDone s).act = s.act := rfl
@[simp] theorem commitDone_crcreg (s : State) : (commitDone s).crcreg = s.crcreg := rfl
@[simp] theorem commitDone_fsm (s : State) : (commitDone s).fsm = s.fsm := rfl
@[simp] theorem commitDone_blk (s : State) : (commitDone s).blk = s.blk := rfl
@[simp] theorem commitDone_blkc (s : State) : (commitDone s).blkc = s.blkc := rfl
@[simp] theorem commitDone_crcrx (s : State) : (commitDone s).crcrx = s.crcrx := rfl
@[simp] theorem commitDone_idx (s : State) : (commitDone s).idx = s.idx := rfl
@[simp] theorem commitDone_pb (s : State) : (commitDone s).pb = s.pb := rfl
@[simp] theorem commitDone_pbv (s : State) : (commitDone s).pbv = s.pbv := rfl
@[simp] theorem commitDone_cursor (s : State) : (commitDone s).cursor = s.cursor := rfl
@[simp] theorem commitDone_acc (s : State) : (commitDone s).acc = s.acc := rfl
@[simp] theorem commitDone_pgbuf (s : State) : (commitDone s).pgbuf = s.pgbuf := rfl
@[simp] theorem commitDone_paddr (s : State) : (commitDone s).paddr = s.paddr := rfl
@[simp] theorem commitDone_vfy (s : State) : (commitDone s).vfy = s.vfy := rfl
@[simp] theorem commitDone_cmd (s : State) : (commitDone s).cmd = s.cmd := rfl
@[simp] theorem commitDone_wseq (s : State) : (commitDone s).wseq = s.wseq := rfl
@[simp] theorem commitDone_widx (s : State) : (commitDone s).widx = s.widx := rfl
@[simp] theorem commitDone_nvmBusy (s : State) : (commitDone s).nvmBusy = false := rfl
@[simp] theorem commitDone_pending (s : State) : (commitDone s).pending = none := rfl
@[simp] theorem commitDone_res (s : State) : (commitDone s).res = s.res := rfl
@[simp] theorem commitDone_fault (s : State) : (commitDone s).fault = s.fault := rfl
@[simp] theorem commitDone_faultRec (s : State) : (commitDone s).faultRec = s.faultRec := rfl
@[simp] theorem commitDone_flash (s : State) : (commitDone s).flash = s.flash := rfl
@[simp] theorem commitDone_ee (s : State) : (commitDone s).ee = s.ee := rfl
@[simp] theorem commitDone_hpc (s : State) : (commitDone s).hpc = s.hpc := rfl
@[simp] theorem commitDone_led (s : State) : (commitDone s).led = s.led := rfl
@[simp] theorem commitDone_pullup (s : State) : (commitDone s).pullup = s.pullup := rfl
@[simp] theorem commitDone_mode (s : State) : (commitDone s).mode = s.mode := rfl
@[simp] theorem commitDone_resW (s : State) : (commitDone s).resW = s.resW := rfl
@[simp] theorem commitDone_blkW (s : State) : (commitDone s).blkW = s.blkW := rfl
@[simp] theorem commitDone_blkcW (s : State) : (commitDone s).blkcW = s.blkcW := rfl
@[simp] theorem commitDone_crcrxW (s : State) : (commitDone s).crcrxW = s.crcrxW := rfl
@[simp] theorem commitDone_issued (s : State) : (commitDone s).issued = s.issued := rfl

/-! ### runCrc -/

@[simp] theorem runCrc_cfg (s : State) : (runCrc s).cfg = s.cfg := rfl
@[simp] theorem runCrc_prog (s : State) : (runCrc s).prog = s.prog := rfl
@[simp] theorem runCrc_script (s : State) : (runCrc s).script = s.script := rfl
@[simp] theorem runCrc_tick (s : State) : (runCrc s).tick = s.tick := rfl
@[simp] theorem runCrc_rxq (s : State) : (runCrc s).rxq = s.rxq := rfl
@[simp] theorem runCrc_txh (s : State) : (runCrc s).txh = s.txh := rfl
@[simp] theorem runCrc_txlog (s : State) : (runCrc s).txlog = s.txlog := rfl
@[simp] theorem runCrc_armed (s : State) : (runCrc s).armed = s.armed := rfl
@[simp] theorem runCrc_act (s : State) : (runCrc s).act = s.act := rfl
@[simp] theorem runCrc_crcreg (s : State) : (runCrc s).crcreg = crc16 s.pb := rfl
@[simp] theorem runCrc_fsm (s : State) : (runCrc s).fsm = s.fsm := rfl
@[simp] theorem runCrc_blk (s : State) : (runCrc s).blk = s.blk := rfl
@[simp] theorem runCrc_blkc (s : State) : (runCrc s).blkc = s.blkc := rfl
@[simp] theorem runCrc_crcrx (s : State) : (runCrc s).crcrx = s.crcrx := rfl
@[simp] theorem runCrc_idx (s : State) : (runCrc s).idx = s.idx := rfl
@[simp] theorem runCrc_pb (s : State) : (runCrc s).pb = s.pb := rfl
@[simp] theorem runCrc_pbv (s : State) : (runCrc s).pbv = s.pbv := rfl
@[simp] theorem runCrc_cursor (s : State) : (runCrc s).cursor = s.cursor := rfl
@[simp] theorem runCrc_acc (s : State) : (runCrc s).acc = s.acc := rfl
@[simp] theorem runCrc_pgbuf (s : State) : (runCrc s).pgbuf = s.pgbuf := rfl
@[simp] theorem runCrc_paddr (s : State) : (runCrc s).paddr = s.paddr := rfl
@[simp] theorem runCrc_vfy (s : State) : (runCrc s).vfy = s.vfy := rfl
@[simp] theorem runCrc_cmd (s : State) : (runCrc s).cmd = s.cmd := rfl
@[simp] theorem runCrc_wseq (s : State) : (runCrc s).wseq = s.wseq := rfl
@[simp] theorem runCrc_widx (s : State) : (runCrc s).widx = s.widx := rfl
@[simp] theorem runCrc_nvmBusy (s : State) : (runCrc s).nvmBusy = s.nvmBusy := rfl
@[simp] theorem runCrc_pending (s : State) : (runCrc s).pending = s.pending := rfl
@[simp] theorem runCrc_res (s : State) : (runCrc s).res = s.res := rfl
@[simp] theorem runCrc_fault (s : State) : (runCrc s).fault = s.fault := rfl
@[simp] theorem runCrc_faultRec (s : State) : (runCrc s).faultRec = s.faultRec := rfl
@[simp] theorem runCrc_flash (s : State) : (runCrc s).flash = s.flash := rfl
@[simp] theorem runCrc_ee (s : State) : (runCrc s).ee = s.ee := rfl
@[simp] theorem runCrc_hpc (s : State) : (runCrc s).hpc = s.hpc := rfl
@[simp] theorem runCrc_led (s : State) : (runCrc s).led = s.led := rfl
@[simp] theorem runCrc_pullup (s : State) : (runCrc s).pullup = s.pullup := rfl
@[simp] theorem runCrc_mode (s : State) : (runCrc s).mode = s.mode := rfl
@[simp] theorem runCrc_resW (s : State) : (runCrc s).resW = s.resW := rfl
@[simp] theorem runCrc_blkW (s : State) : (runCrc s).blkW = s.blkW := rfl
@[simp] theorem runCrc_blkcW (s : State) : (runCrc s).blkcW = s.blkcW := rfl
@[simp] theorem runCrc_crcrxW (s : State) : (runCrc s).crcrxW = s.crcrxW := rfl
@[simp] theorem runCrc_issued (s : State) : (runCrc s).issued = s.issued := rfl

/-! ### goto -/

@[simp] theorem goto_cfg (n : Nat) (s : State) : (goto n s).cfg = s.cfg := rfl
@[simp] theorem goto_prog (n : Nat) (s : State) : (goto n s).prog = s.prog := rfl
@[simp] theorem goto_script (n : Nat) (s : State) : (goto n s).script = s.script := rfl
@[simp] theorem goto_tick (n : Nat) (s : State) : (goto n s).tick = s.tick := rfl
@[simp] theorem goto_rxq (n : Nat) (s : State) : (goto n s).rxq = s.rxq := rfl
@[simp] theorem goto_txh (n : Nat) (s : State) : (goto n s).txh = s.txh := rfl
@[simp] theorem goto_txlog (n : Nat) (s : State) : (goto n s).txlog = s.txlog := rfl
@[simp] theorem goto_armed (n : Nat) (s : State) : (goto n s).armed = s.armed := rfl
@[simp] theorem goto_act (n : Nat) (s : State) : (goto n s).act = s.act := rfl
@[simp] theorem goto_crcreg (n : Nat) (s : State) : (goto n s).crcreg = s.crcreg := rfl
@[simp] theorem goto_fsm (n : Nat) (s : State) : (goto n s).fsm = s.fsm := rfl
@[simp] theorem goto_blk (n : Nat) (s : State) : (goto n s).blk = s.blk := rfl
@[simp] theorem goto_blkc (n : Nat) (s : State) : (goto n s).blkc = s.blkc := rfl
@[simp] theorem goto_crcrx (n : Nat) (s : State) : (goto n s).crcrx = s.crcrx := rfl
@[simp] theorem goto_idx (n : Nat) (s : State) : (goto n s).idx = s.idx := rfl
@[simp] theorem goto_pb (n : Nat) (s : State) : (goto n s).pb = s.pb := rfl
@[simp] theorem goto_pbv (n : Nat) (s : State) : (goto n s).pbv = s.pbv := rfl
@[simp] theorem goto_cursor (n : Nat) (s : State) : (goto n s).cursor = s.cursor := rfl
@[simp] theorem goto_acc (n : Nat) (s : State) : (goto n s).acc = s.acc := rfl
@[simp] theorem goto_pgbuf (n : Nat) (s : State) : (goto n s).pgbuf = s.pgbuf := rfl
@[simp] theorem goto_paddr (n : Nat) (s : State) : (goto n s).paddr = s.paddr := rfl
@[simp] theorem goto_vfy (n : Nat) (s : State) : (goto n s).vfy = s.vfy := rfl
@[simp] theorem goto_cmd (n : Nat) (s : State) : (goto n s).cmd = s.cmd := rfl
@[simp] theorem goto_wseq (n : Nat) (s : State) : (goto n s).wseq = s.wseq := rfl
@[simp] theorem goto_widx (n : Nat) (s : State) : (goto n s).widx = s.widx := rfl
@[simp] theorem goto_nvmBusy (n : Nat) (s : State) : (goto n s).nvmBusy = s.nvmBusy := rfl
@[simp] theorem goto_pending (n : Nat) (s : State) : (goto n s).pending = s.pending := rfl
@[simp] theorem goto_res (n : Nat) (s : State) : (goto n s).res = s.res := rfl
@[simp] theorem goto_fault (n : Nat) (s : State) : (goto n s).fault = s.fault := rfl
@[simp] theorem goto_faultRec (n : Nat) (s : State) : (goto n s).faultRec = s.faultRec := rfl
@[simp] theorem goto_flash (n : Nat) (s : State) : (goto n s).flash = s.flash := rfl
@[simp] theorem goto_ee (n : Nat) (s : State) : (goto n s).ee = s.ee := rfl
@[simp] theorem goto_hpc (n : Nat) (s : State) : (goto n s).hpc = .stmt n 0 := rfl
@[simp] theorem goto_led (n : Nat) (s : State) : (goto n s).led = s.led := rfl
@[simp] theorem goto_pullup (n : Nat) (s : State) : (goto n s).pullup = s.pullup := rfl
@[simp] theorem goto_mode (n : Nat) (s : State) : (goto n s).mode = s.mode := rfl
@[simp] theorem goto_resW (n : Nat) (s : State) : (goto n s).resW = s.resW := rfl
@[simp] theorem goto_blkW (n : Nat) (s : State) : (goto n s).blkW = s.blkW := rfl
@[simp] theorem goto_blkcW (n : Nat) (s : State) : (goto n s).blkcW = s.blkcW := rfl
@[simp] theorem goto_crcrxW (n : Nat) (s : State) : (goto n s).crcrxW = s.crcrxW := rfl
@[simp] theorem goto_issued (n : Nat) (s : State) : (goto n s).issued = s.issued := rfl

/-! ### latchEdge -/

@[simp] theorem latchEdge_cfg (s : State) : (latchEdge s).cfg = s.cfg := rfl
@[simp] theorem latchEdge_prog (s : State) : (latchEdge s).prog = s.prog := rfl
@[simp] theorem latchEdge_script (s : State) : (latchEdge s).script = s.script := rfl
@[simp] theorem latchEdge_tick (s : State) : (latchEdge s).tick = s.tick := rfl
@[simp] theorem latchEdge_rxq (s : State) : (latchEdge s).rxq = s.rxq := rfl
@[simp] theorem latchEdge_txh (s : State) : (latchEdge s).txh = s.txh := rfl
@[simp] theorem latchEdge_txlog (s : State) : (latchEdge s).txlog = s.txlog := rfl
@[simp] theorem latchEdge_armed (s : State) : (latchEdge s).armed = s.armed := rfl
@[simp] theorem latchEdge_act (s : State) : (latchEdge s).act = (s.act || s.armed) := rfl
@[simp] theorem latchEdge_crcreg (s : State) : (latchEdge s).crcreg = s.crcreg := rfl
@[simp] theorem latchEdge_fsm (s : State) : (latchEdge s).fsm = s.fsm := rfl
@[simp] theorem latchEdge_blk (s : State) : (latchEdge s).blk = s.blk := rfl
@[simp] theorem latchEdge_blkc (s : State) : (latchEdge s).blkc = s.blkc := rfl
@[simp] theorem latchEdge_crcrx (s : State) : (latchEdge s).crcrx = s.crcrx := rfl
@[simp] theorem latchEdge_idx (s : State) : (latchEdge s).idx = s.idx := rfl
@[simp] theorem latchEdge_pb (s : State) : (latchEdge s).pb = s.pb := rfl
@[simp] theorem latchEdge_pbv (s : State) : (latchEdge s).pbv = s.pbv := rfl
@[simp] theorem latchEdge_cursor (s : State) : (latchEdge s).cursor = s.cursor := rfl
@[simp] theorem latchEdge_acc (s : State) : (latchEdge s).acc = s.acc := rfl
@[simp] theorem latchEdge_pgbuf (s : State) : (latchEdge s).pgbuf = s.pgbuf := rfl
@[simp] theorem latchEdge_paddr (s : State) : (latchEdge s).paddr = s.paddr := rfl
@[simp] theorem latchEdge_vfy (s : State) : (latchEdge s).vfy = s.vfy := rfl
@[simp] theorem latchEdge_cmd (s : State) : (latchEdge s).cmd = s.cmd := rfl
@[simp] theorem latchEdge_wseq (s : State) : (latchEdge s).wseq = s.wseq := rfl
@[simp] theorem latchEdge_widx (s : State) : (latchEdge s).widx = s.widx := rfl
@[simp] theorem latchEdge_nvmBusy (s : State) : (latchEdge s).nvmBusy = s.nvmBusy := rfl
@[simp] theorem latchEdge_pending (s : State) : (latchEdge s).pending = s.pending := rfl
@[simp] theorem latchEdge_res (s : State) : (latchEdge s).res = s.res := rfl
@[simp] theorem latchEdge_fault (s : State) : (latchEdge s).fault = s.fault := rfl
@[simp] theorem latchEdge_faultRec (s : State) : (latchEdge s).faultRec = s.faultRec := rfl
@[simp] theorem latchEdge_flash (s : State) : (latchEdge s).flash = s.flash := rfl
@[simp] theorem latchEdge_ee (s : State) : (latchEdge s).ee = s.ee := rfl
@[simp] theorem latchEdge_hpc (s : State) : (latchEdge s).hpc = s.hpc := rfl
@[simp] theorem latchEdge_led (s : State) : (latchEdge s).led = s.led := rfl
@[simp] theorem latchEdge_pullup (s : State) : (latchEdge s).pullup = s.pullup := rfl
@[simp] theorem latchEdge_mode (s : State) : (latchEdge s).mode = s.mode := rfl
@[simp] theorem latchEdge_resW (s : State) : (latchEdge s).resW = s.resW := rfl
@[simp] theorem latchEdge_blkW (s : State) : (latchEdge s).blkW = s.blkW := rfl
@[simp] theorem latchEdge_blkcW (s : State) : (latchEdge s).blkcW = s.blkcW := rfl
@[simp] theorem latchEdge_crcrxW (s : State) : (latchEdge s).crcrxW = s.crcrxW := rfl
@[simp] theorem latchEdge_issued (s : State) : (latchEdge s).issued = s.issued := rfl

/-! ### deviceReset -/

@[simp] theorem deviceReset_cfg (r : ResetDraw) (s : State) : (deviceReset r s).cfg = s.cfg := rfl
@[simp] theorem deviceReset_prog (r : ResetDraw) (s : State) : (deviceReset r s).prog = s.prog := rfl
@[simp] theorem deviceReset_script (r : ResetDraw) (s : State) : (deviceReset r s).script = s.script := rfl
@[simp] theorem deviceReset_tick (r : ResetDraw) (s : State) : (deviceReset r s).tick = s.tick := rfl
@[simp] theorem deviceReset_rxq (r : ResetDraw) (s : State) : (deviceReset r s).rxq = [] := rfl
@[simp] theorem deviceReset_txh (r : ResetDraw) (s : State) : (deviceReset r s).txh = none := rfl
@[simp] theorem deviceReset_txlog (r : ResetDraw) (s : State) : (deviceReset r s).txlog = resetTxlog r s := rfl
@[simp] theorem deviceReset_armed (r : ResetDraw) (s : State) : (deviceReset r s).armed = false := rfl
@[simp] theorem deviceReset_act (r : ResetDraw) (s : State) : (deviceReset r s).act = false := rfl
@[simp] theorem deviceReset_crcreg (r : ResetDraw) (s : State) : (deviceReset r s).crcreg = 0 := rfl
@[simp] theorem deviceReset_fsm (r : ResetDraw) (s : State) : (deviceReset r s).fsm = .idle := rfl
@[simp] theorem deviceReset_blk (r : ResetDraw) (s : State) : (deviceReset r s).blk = 0 := rfl
@[simp] theorem deviceReset_blkc (r : ResetDraw) (s : State) : (deviceReset r s).blkc = 0 := rfl
@[simp] theorem deviceReset_crcrx (r : ResetDraw) (s : State) : (deviceReset r s).crcrx = 0 := rfl
@[simp] theorem deviceReset_idx (r : ResetDraw) (s : State) : (deviceReset r s).idx = 0 := rfl
@[simp] theorem deviceReset_pb (r : ResetDraw) (s : State) : (deviceReset r s).pb = Vector.replicate 128 0 := rfl
@[simp] theorem deviceReset_pbv (r : ResetDraw) (s : State) : (deviceReset r s).pbv = false := rfl
@[simp] theorem deviceReset_cursor (r : ResetDraw) (s : State) : (deviceReset r s).cursor = s.cfg.appStart := rfl
@[simp] theorem deviceReset_acc (r : ResetDraw) (s : State) : (deviceReset r s).acc = 0 := rfl
@[simp] theorem deviceReset_pgbuf (r : ResetDraw) (s : State) : (deviceReset r s).pgbuf = blankPage s.cfg := rfl
@[simp] theorem deviceReset_paddr (r : ResetDraw) (s : State) : (deviceReset r s).paddr = 0 := rfl
@[simp] theorem deviceReset_vfy (r : ResetDraw) (s : State) : (deviceReset r s).vfy = false := rfl
@[simp] theorem deviceReset_cmd (r : ResetDraw) (s : State) : (deviceReset r s).cmd = none := rfl
@[simp] theorem deviceReset_wseq (r : ResetDraw) (s : State) : (deviceReset r s).wseq = .idle := rfl
@[simp] theorem deviceReset_widx (r : ResetDraw) (s : State) : (deviceReset r s).widx = 0 := rfl
@[simp] theorem deviceReset_nvmBusy (r : ResetDraw) (s : State) : (deviceReset r s).nvmBusy = false := rfl
@[simp] theorem deviceReset_pending (r : ResetDraw) (s : State) : (deviceReset r s).pending = none := rfl
@[simp] theorem deviceReset_res (r : ResetDraw) (s : State) : (deviceReset r s).res = 0 := rfl
@[simp] theorem deviceReset_fault (r : ResetDraw) (s : State) : (deviceReset r s).fault = .none := rfl
@[simp] theorem deviceReset_faultRec (r : ResetDraw) (s : State) : (deviceReset r s).faultRec = .none := rfl
@[simp] theorem deviceReset_flash (r : ResetDraw) (s : State) : (deviceReset r s).flash = resetFlash r s := rfl
@[simp] theorem deviceReset_ee (r : ResetDraw) (s : State) : (deviceReset r s).ee = resetEE r s := rfl
@[simp] theorem deviceReset_hpc (r : ResetDraw) (s : State) : (deviceReset r s).hpc = .stmt 0 0 := rfl
@[simp] theorem deviceReset_led (r : ResetDraw) (s : State) : (deviceReset r s).led = .off := rfl
@[simp] theorem deviceReset_pullup (r : ResetDraw) (s : State) : (deviceReset r s).pullup = false := rfl
@[simp] theorem deviceReset_mode (r : ResetDraw) (s : State) : (deviceReset r s).mode = .boot := rfl
@[simp] theorem deviceReset_resW (r : ResetDraw) (s : State) : (deviceReset r s).resW = false := rfl
@[simp] theorem deviceReset_blkW (r : ResetDraw) (s : State) : (deviceReset r s).blkW = false := rfl
@[simp] theorem deviceReset_blkcW (r : ResetDraw) (s : State) : (deviceReset r s).blkcW = false := rfl
@[simp] theorem deviceReset_crcrxW (r : ResetDraw) (s : State) : (deviceReset r s).crcrxW = false := rfl
@[simp] theorem deviceReset_issued (r : ResetDraw) (s : State) : (deviceReset r s).issued = false := rfl

/-! ### takeEvent -/

@[simp] theorem takeEvent_cfg (s : State) : (takeEvent s).cfg = s.cfg := by unfold takeEvent; split <;> rfl
@[simp] theorem takeEvent_prog (s : State) : (takeEvent s).prog = s.prog := by unfold takeEvent; split <;> rfl
@[simp] theorem takeEvent_rxq (s : State) : (takeEvent s).rxq = s.rxq := by unfold takeEvent; split <;> rfl
@[simp] theorem takeEvent_txh (s : State) : (takeEvent s).txh = s.txh := by unfold takeEvent; split <;> rfl
@[simp] theorem takeEvent_txlog (s : State) : (takeEvent s).txlog = s.txlog := by unfold takeEvent; split <;> rfl
@[simp] theorem takeEvent_armed (s : State) : (takeEvent s).armed = s.armed := by unfold takeEvent; split <;> rfl
@[simp] theorem takeEvent_act (s : State) : (takeEvent s).act = s.act := by unfold takeEvent; split <;> rfl
@[simp] theorem takeEvent_crcreg (s : State) : (takeEvent s).crcreg = s.crcreg := by unfold takeEvent; split <;> rfl
@[simp] theorem takeEvent_fsm (s : State) : (takeEvent s).fsm = s.fsm := by unfold takeEvent; split <;> rfl
@[simp] theorem takeEvent_blk (s : State) : (takeEvent s).blk = s.blk := by unfold takeEvent; split <;> rfl
@[simp] theorem takeEvent_blkc (s : State) : (takeEvent s).blkc = s.blkc := by unfold takeEvent; split <;> rfl
@[simp] theorem takeEvent_crcrx (s : State) : (takeEvent s).crcrx = s.crcrx := by unfold takeEvent; split <;> rfl
@[simp] theorem takeEvent_idx (s : State) : (takeEvent s).idx = s.idx := by unfold takeEvent; split <;> rfl
@[simp] theorem takeEvent_pb (s : State) : (takeEvent s).pb = s.pb := by unfold takeEvent; split <;> rfl
@[simp] theorem takeEvent_pbv (s : State) : (takeEvent s).pbv = s.pbv := by unfold takeEvent; split <;> rfl
@[simp] theorem takeEvent_cursor (s : State) : (takeEvent s).cursor = s.cursor := by unfold takeEvent; split <;> rfl
@[simp] theorem takeEvent_acc (s : State) : (takeEvent s).acc = s.acc := by unfold takeEvent; split <;> rfl
@[simp] theorem takeEvent_pgbuf (s : State) : (takeEvent s).pgbuf = s.pgbuf := by unfold takeEvent; split <;> rfl
@[simp] theorem takeEvent_paddr (s : State) : (takeEvent s).paddr = s.paddr := by unfold takeEvent; split <;> rfl
@[simp] theorem takeEvent_vfy (s : State) : (takeEvent s).vfy = s.vfy := by unfold takeEvent; split <;> rfl
@[simp] theorem takeEvent_cmd (s : State) : (takeEvent s).cmd = s.cmd := by unfold takeEvent; split <;> rfl
@[simp] theorem takeEvent_wseq (s : State) : (takeEvent s).wseq = s.wseq := by unfold takeEvent; split <;> rfl
@[simp] theorem takeEvent_widx (s : State) : (takeEvent s).widx = s.widx := by unfold takeEvent; split <;> rfl
@[simp] theorem takeEvent_nvmBusy (s : State) : (takeEvent s).nvmBusy = s.nvmBusy := by unfold takeEvent; split <;> rfl
@[simp] theorem takeEvent_pending (s : State) : (takeEvent s).pending = s.pending := by unfold takeEvent; split <;> rfl
@[simp] theorem takeEvent_res (s : State) : (takeEvent s).res = s.res := by unfold takeEvent; split <;> rfl
@[simp] theorem takeEvent_fault (s : State) : (takeEvent s).fault = s.fault := by unfold takeEvent; split <;> rfl
@[simp] theorem takeEvent_faultRec (s : State) : (takeEvent s).faultRec = s.faultRec := by unfold takeEvent; split <;> rfl
@[simp] theorem takeEvent_flash (s : State) : (takeEvent s).flash = s.flash := by unfold takeEvent; split <;> rfl
@[simp] theorem takeEvent_ee (s : State) : (takeEvent s).ee = s.ee := by unfold takeEvent; split <;> rfl
@[simp] theorem takeEvent_hpc (s : State) : (takeEvent s).hpc = s.hpc := by unfold takeEvent; split <;> rfl
@[simp] theorem takeEvent_led (s : State) : (takeEvent s).led = s.led := by unfold takeEvent; split <;> rfl
@[simp] theorem takeEvent_pullup (s : State) : (takeEvent s).pullup = s.pullup := by unfold takeEvent; split <;> rfl
@[simp] theorem takeEvent_mode (s : State) : (takeEvent s).mode = s.mode := by unfold takeEvent; split <;> rfl
@[simp] theorem takeEvent_resW (s : State) : (takeEvent s).resW = s.resW := by unfold takeEvent; split <;> rfl
@[simp] theorem takeEvent_blkW (s : State) : (takeEvent s).blkW = s.blkW := by unfold takeEvent; split <;> rfl
@[simp] theorem takeEvent_blkcW (s : State) : (takeEvent s).blkcW = s.blkcW := by unfold takeEvent; split <;> rfl
@[simp] theorem takeEvent_crcrxW (s : State) : (takeEvent s).crcrxW = s.crcrxW := by unfold takeEvent; split <;> rfl
@[simp] theorem takeEvent_issued (s : State) : (takeEvent s).issued = s.issued := by unfold takeEvent; split <;> rfl

theorem takeEvent_of_script {s : State} {e : Event} {rest : List Event} (h : s.script = e :: rest) :
    takeEvent s = { s with script := rest } := by simp [takeEvent, h]

theorem nextEvent_of_script {s : State} {e : Event} {rest : List Event} (h : s.script = e :: rest) :
    nextEvent s = e := by simp [nextEvent, h]

end Sys2Proof.Machine
end

