-- ==== Sys2Proof/Laws/Ops.lean ====
section
/-! SUPPORT. One lemma for each shared operation that says what it can do, and the inversion of a step. -/

namespace Sys2Proof.Machine

open Sys2Proof.Safety

@[simp] theorem recvByte_nil {s : State} (h : s.rxq = []) : recvByte s = none := by simp [recvByte, h]

@[simp] theorem recvByte_cons {s : State} {b : Byte} {q : List Byte} (h : s.rxq = b :: q) :
    recvByte s = some (b, { s with rxq := q }) := by simp [recvByte, h]

/-- `RecvByte()` takes the front byte and nothing else (R132). -/
theorem recvByte_eq_some {s t : State} {b : Byte} (h : recvByte s = some (b, t)) :
    ∃ q, s.rxq = b :: q ∧ t = { s with rxq := q } := by
  unfold recvByte at h
  split at h
  · cases h
  · rename_i x q hq
    cases h
    exact ⟨q, hq, rfl⟩

@[simp] theorem sendByte_empty {s : State} (b : Byte) (h : s.txh = none) :
    sendByte b s = some { s with txh := some b } := by simp [sendByte, h]

@[simp] theorem sendByte_full {s : State} {x : Byte} (b : Byte) (h : s.txh = some x) : sendByte b s = none := by
  simp [sendByte, h]

/-- `SendByte(b)` fills an empty `TXH` and nothing else (R131). -/
theorem sendByte_eq_some {s t : State} {b : Byte} (h : sendByte b s = some t) :
    s.txh = none ∧ t = { s with txh := some b } := by
  unfold sendByte at h
  split at h
  · rename_i hx
    cases h
    exact ⟨hx, rfl⟩
  · cases h

theorem takeByte_front {s : State} {b : Byte} {q : List Byte} (k : State → Out) (h : s.rxq = b :: q) :
    takeByte b k s = k { s with rxq := q } := by simp [takeByte, h]

/-- Taking a byte either goes on with it removed, or leaves the state as it was. -/
theorem takeByte_eq_next {s t : State} {b : Byte} {k : State → Out} (h : takeByte b k s = .next t) :
    (∃ q, s.rxq = b :: q ∧ k { s with rxq := q } = .next t) ∨ t = s := by
  unfold takeByte at h
  split at h
  · cases h; exact .inr rfl
  · rename_i x q hq
    split at h
    · rename_i hx
      subst hx
      exact .inl ⟨q, hq, h⟩
    · cases h; exact .inr rfl

/-- A byte of FLASH depends on the memory alone. -/
theorem flashByte_congr {s t : State} (h : t.flash = s.flash) (a : Nat) : flashByte a t = flashByte a s := by
  simp [flashByte, h]

/-- A byte of EE depends on the memory alone. -/
theorem eeByte_congr {s t : State} (h : t.ee = s.ee) (a : Nat) : eeByte a t = eeByte a s := by
  simp [eeByte, h]

@[simp] theorem flashByte_takeEvent (a : Nat) (s : State) : flashByte a (takeEvent s) = flashByte a s :=
  flashByte_congr (takeEvent_flash s) a

@[simp] theorem eeByte_takeEvent (a : Nat) (s : State) : eeByte a (takeEvent s) = eeByte a s :=
  eeByte_congr (takeEvent_ee s) a

@[simp] theorem faulted_eq_true {s : State} : s.faulted = true ↔ s.fault ≠ .none := by simp [State.faulted]

@[simp] theorem faulted_eq_false {s : State} : s.faulted = false ↔ s.fault = .none := by simp [State.faulted]

@[simp] theorem busy_eq_true {s : State} : s.busy = true ↔ s.cmd ≠ none := by
  simp [State.busy, Option.isSome_iff_ne_none]

@[simp] theorem busy_eq_false {s : State} : s.busy = false ↔ s.cmd = none := by simp [State.busy]

/-- A step of a scheduled agent is that agent's step in the state whose script has moved on. -/
theorem step_scheduled {s : State} {e : Event} {rest : List Event} (h : Scheduled e rest s) :
    step s = agentStep e { s with script := rest } := by
  obtain ⟨ha, hf, hs⟩ := h
  have : s.faulted = false := by simpa using hf
  simp [step, ha, this, takeEvent_of_script hs, nextEvent_of_script hs]

/-- What a step can be: after a fault a read of the register view, else a step of the agent the next event names. -/
theorem step_eq_next {s t : State} (h : step s = .next t) :
    s.cfg.Admitted ∧
    ((s.fault ≠ .none ∧ afterFault (nextEvent s) (takeEvent s) = .next t) ∨
     (s.fault = .none ∧ agentStep (nextEvent s) (takeEvent s) = .next t)) := by
  unfold step at h
  split at h
  · rename_i ha
    split at h
    · rename_i hf
      exact ⟨ha, .inl ⟨by simpa using hf, h⟩⟩
    · rename_i hf
      exact ⟨ha, .inr ⟨by simpa using hf, h⟩⟩
  · cases h

/-- What a read of the view can answer with a next state: the register has a value and nothing changes, or it is `PB`
outside its window. -/
theorem readView_eq_next {outside : Out} {n : Nat} {s t : State} (h : readView outside n s = .next t) :
    (∃ v, readRegister n s = .value v ∧ t = s) ∨ (readRegister n s = .pbInvalid ∧ outside = .next t) := by
  unfold readView at h
  split at h
  · cases h; exact .inl ⟨_, by assumption, rfl⟩
  · exact .inr ⟨by assumption, h⟩
  · cases h
  · cases h

/-- What it refuses: what R52 and R55 refuse, or what `outside` does. -/
theorem readView_eq_refused {outside : Out} {n : Nat} {s : State} {r : Refusal}
    (h : readView outside n s = .refused r) :
    (readRegister n s = .reserved ∧ r = .reservedRegister n) ∨
    (readRegister n s = .unwritten ∧ r = .unwrittenRegister n) ∨
    (readRegister n s = .pbInvalid ∧ outside = .refused r) := by
  unfold readView at h
  split at h
  · cases h
  · exact .inr (.inr ⟨by assumption, h⟩)
  · cases h; exact .inl ⟨by assumption, rfl⟩
  · cases h; exact .inr (.inl ⟨by assumption, rfl⟩)

@[simp] theorem resSeen_written {s : State} (h : s.resW = true) : resSeen s = s.res := by simp [resSeen, h]

@[simp] theorem resSeen_unwritten {s : State} (h : s.resW = false) : resSeen s = Config.unwrittenRes := by
  simp [resSeen, h]

/-- After a fault only a read that answers is a step, and it changes nothing (R262). -/
theorem afterFault_eq_next {e : Event} {s t : State} (h : afterFault e s = .next t) :
    (∃ n v, e = .hostRead n ∧ readRegister n s = .value v) ∧ t = s := by
  cases e <;> simp only [afterFault] at h <;> try cases h
  rename_i n
  obtain ⟨v, hv, rfl⟩ | ⟨_, h⟩ := readView_eq_next h
  · exact ⟨⟨n, v, rfl, hv⟩, rfl⟩
  · cases h

/-- What a step of BLOCK can be. -/
theorem blockStep_eq_next {s t : State} (h : blockStep s = .next t) :
    (s.cmd = none ∧ t = s) ∨
    (∃ w i, s.cmd = some w ∧ decodeCmd w = .ok i ∧ exec (headerOr i s) s = .next t) ∨
    (∃ w e, s.cmd = some w ∧ decodeCmd w = .error e ∧ t = raiseFault .illegalCmd (.word w) s) := by
  unfold blockStep fetch at h
  cases hc : s.cmd with
  | none => simp [hc] at h; exact .inl ⟨rfl, h.symm⟩
  | some w =>
    simp only [hc] at h
    cases hd : decodeCmd w with
    | ok i => simp only [hd] at h; exact .inr (.inl ⟨w, i, rfl, hd, h⟩)
    | error e => simp only [hd] at h; cases h; exact .inr (.inr ⟨w, e, rfl, hd, rfl⟩)

/-- What a completion of NVM can be (R80). -/
theorem nvmComplete_eq_next {draw : List Byte} {s t : State} (h : nvmComplete draw s = .next t) :
    (∃ page buf, s.nvmBusy = true ∧ s.pending = some (.flash page buf) ∧ page + buf.length ≤ s.cfg.flashSize ∧
      t = commitDone { s with
        flash := s.flash.writeBytes page (oracleBytes draw buf), pgbuf := blankPage s.cfg }) ∨
    (∃ addr v, s.nvmBusy = true ∧ s.pending = some (.ee addr v) ∧ addr < s.cfg.eepromSize ∧
      t = commitDone { s with ee := s.ee.writeBytes addr (oracleBytes draw [v]) }) ∨
    t = s := by
  unfold nvmComplete at h
  split at h
  · rename_i page buf hb hp
    split at h
    · cases h; exact .inl ⟨page, buf, hb, hp, by assumption, rfl⟩
    · cases h
  · rename_i addr v hb hp
    split at h
    · cases h; exact .inr (.inl ⟨addr, v, hb, hp, by assumption, rfl⟩)
    · cases h
  · cases h; exact .inr (.inr rfl)

/-- A transfer of control happens only after a reset, and then passes control to APP_START (R242, R90). -/
theorem transferToApp_eq_next {s t : State} (h : transferToApp s = .next t) :
    freshBoot s ∧ t = { s with mode := .app, hpc := .app s.cfg.appStart } := by
  unfold transferToApp at h
  split at h <;> cases h
  exact ⟨by assumption, rfl⟩

/-- Its one other answer is the refusal of U20. -/
theorem transferToApp_eq_refused {s : State} {r : Refusal} (h : transferToApp s = .refused r) :
    ¬ freshBoot s ∧ r = .jumpWithoutReset := by
  unfold transferToApp at h
  split at h <;> cases h
  exact ⟨by assumption, rfl⟩

/-- What an issue can be (R105). -/
theorem issue_cases (w : Word) (next : HostPc) (s : State) :
    (∃ i, decodeCmd w = .ok i ∧ issue w next s = { s with cmd := some w, hpc := next, issued := true }) ∨
    (∃ e, decodeCmd w = .error e ∧ issue w next s = raiseFault .illegalCmd (.word w) s) := by
  unfold issue
  cases hd : decodeCmd w with
  | ok i => exact .inl ⟨i, rfl, rfl⟩
  | error e => exact .inr ⟨e, rfl, rfl⟩

end Sys2Proof.Machine
end

