-- ==== Sys2Proof/Laws/Exec.lean ====
section
/-! SUPPORT. What each meaning can answer, said once: for every family an inductive relation whose constructors are
the next states its rules give, and the lemma that every next state is one of them. Frames and invariants are case
analyses on these. -/

namespace Sys2Proof.Machine

/-- The next states of the transport's commands (R131 to R134). -/
inductive TransportNext (s : State) : Instr → State → Prop where
  | holdSend (b x : Byte) (h : s.txh = some x) : TransportNext s (.txSend b) s
  | send (b : Byte) (h : s.txh = none) : TransportNext s (.txSend b) { s with txh := some b, cmd := none }
  | holdReceive (h : s.rxq = []) : TransportNext s .rxRecv s
  | receive (b : Byte) (q : List Byte) (h : s.rxq = b :: q) :
      TransportNext s .rxRecv { s with rxq := q, res := b.setWidth 16, resW := true, cmd := none }
  | arm : TransportNext s .actArm { s with armed := true, act := false, cmd := none }
  | probe : TransportNext s .actProbe { s with res := if s.act then 1 else 0, resW := true, cmd := none }

/-- The next states of CRC.CALC (R153). -/
inductive CrcNext (s : State) : State → Prop where
  | compute (h : s.pbv = true) :
      CrcNext s { s with crcreg := crc16 s.pb, res := crc16 s.pb, resW := true, cmd := none }
  | invalid (h : s.pbv = false) : CrcNext s { s with fault := .pbInvalid, faultRec := .word 0x1000 }

/-- The next states of a byte of the packet, already taken (R170 to R172). -/
inductive PacketNext (s : State) (b : Byte) : State → Prop where
  | blk (h : s.fsm = .readBlk) : PacketNext s b { s with blk := b, blkW := true, fsm := .readBlkc }
  | blkc (h : s.fsm = .readBlkc) :
      PacketNext s b { s with blkc := b, blkcW := true, idx := 0, fsm := .readPayload }
  | payload (h : s.fsm = .readPayload) (hi : s.idx < 128) :
      PacketNext s b { s with
        pb := s.pb.setIfInBounds s.idx b, idx := s.idx + 1,
        fsm := if s.idx + 1 = 128 then .readCrcHi else .readPayload }
  | crcHi (h : s.fsm = .readCrcHi) :
      PacketNext s b { s with crcrx := b ++ 0x00#8, crcrxW := true, fsm := .readCrcLo }
  | crcLo (h : s.fsm = .readCrcLo) :
      PacketNext s b { s with crcrx := s.crcrx.extractLsb' 8 8 ++ b, crcrxW := true, fsm := .validate }

/-- The next states of PKT.RECV and of the header bytes (R166 to R175). -/
inductive FramerNext (s : State) : State → Prop where
  | hold : FramerNext s s
  | start (h : s.fsm = .idle) : FramerNext s { s with pbv := false, idx := 0, fsm := .waitHeader }
  | soh (q : List Byte) (h : s.fsm = .waitHeader) (hq : s.rxq = SOH :: q) :
      FramerNext s { s with rxq := q, fsm := .readBlk }
  | eot (q : List Byte) (h : s.fsm = .waitHeader) (hq : s.rxq = EOT :: q) :
      FramerNext s { s with rxq := q, fsm := .idle, res := resEot, resW := true, cmd := none }
  | noise (b : Byte) (q : List Byte) (h : s.fsm = .waitHeader) (hq : s.rxq = b :: q) :
      FramerNext s { s with rxq := q, fsm := .waitHeader }
  | data (b : Byte) (q : List Byte) (t : State) (hq : s.rxq = b :: q)
      (h : PacketNext { s with rxq := q } b t) : FramerNext s t
  | accepted (h : s.fsm = .validate) (hc : crc16 s.pb = s.crcrx) (hb : s.blk.toNat + s.blkc.toNat = 255) :
      FramerNext s { s with
        crcreg := crc16 s.pb, pbv := true, fsm := .idle, res := resBlock, resW := true, cmd := none }
  | rejected (h : s.fsm = .validate) (hc : crc16 s.pb = s.crcrx → s.blk.toNat + s.blkc.toNat ≠ 255) :
      FramerNext s { s with crcreg := crc16 s.pb, fsm := .sendNak }
  | nak (h : s.fsm = .sendNak) (ht : s.txh = none) :
      FramerNext s { s with txh := some NAK, fsm := .waitHeader }

/-- The next states of NVM.WRBLK (R200 to R205). -/
inductive WriteNext (s : State) : State → Prop where
  | invalid (h : s.wseq = .idle) (hv : s.pbv = false) :
      WriteNext s { s with fault := .pbInvalid, faultRec := .word 0x3000 }
  | range (h : s.wseq = .idle) (hv : s.pbv = true) (hr : ¬ cursorFits s) :
      WriteNext s { s with fault := .cursorRange, faultRec := .wordCursor 0x3000 s.cursor }
  | start (h : s.wseq = .idle) (hv : s.pbv = true) (hr : cursorFits s) :
      WriteNext s { s with widx := 0, wseq := .stage }
  | stage (h : s.wseq = .stage) (hi : s.widx < 128) :
      WriteNext s { s with
        pgbuf := s.pgbuf.set ((s.cursor + s.widx) % s.cfg.pageSize) s.pb[s.widx]
        paddr := (s.cursor + s.widx) - (s.cursor + s.widx) % s.cfg.pageSize
        acc := s.acc + 1
        widx := s.widx + 1
        wseq := if s.acc + 1 = s.cfg.pageSize then .commit
                else if s.widx + 1 = 128 then .verify else .stage }
  | holdCommit (h : s.wseq = .commit) (hb : s.nvmBusy = true) : WriteNext s s
  | commit (h : s.wseq = .commit) (hb : s.nvmBusy = false) (ha : s.acc ≠ 0) :
      WriteNext s { s with acc := 0, pending := some (.flash s.paddr s.pgbuf), nvmBusy := true }
  | committed (h : s.wseq = .commit) (hb : s.nvmBusy = false) (ha : s.acc = 0) :
      WriteNext s { s with wseq := if s.widx = 128 then .verify else .stage }
  | verified (h : s.wseq = .verify) (hr : cursorFits s) (hv : verifyOk s = true) :
      WriteNext s { s with
        vfy := true, cursor := s.cursor + 128, res := 1, resW := true, wseq := .idle, cmd := none }
  | mismatch (h : s.wseq = .verify) (hr : cursorFits s) (hv : verifyOk s = false) :
      WriteNext s { s with vfy := false, res := 0, resW := true, wseq := .idle, cmd := none }

/-- The next states of NVM.FLAG (R210). -/
inductive FlagNext (s : State) : State → Prop where
  | hold (h : s.wseq = .idle ∨ s.wseq = .flag) (hb : s.nvmBusy = true) : FlagNext s s
  | issue (h : s.wseq = .idle) (hb : s.nvmBusy = false) :
      FlagNext s { s with
        pending := some (.ee s.cfg.flagAddr s.cfg.programmedMarker), nvmBusy := true, wseq := .flag }
  | finish (h : s.wseq = .flag) (hb : s.nvmBusy = false) : FlagNext s { s with wseq := .idle, cmd := none }

theorem execTxSend_next {b : Byte} {s t : State} (h : execTxSend b s = .next t) : TransportNext s (.txSend b) t := by
  unfold execTxSend at h
  cases hx : s.txh with
  | none => simp only [sendByte_empty b hx] at h; cases h; exact .send b hx
  | some x => simp only [sendByte_full b hx] at h; cases h; exact .holdSend b x hx

theorem execRxRecv_next {s t : State} (h : execRxRecv s = .next t) : TransportNext s .rxRecv t := by
  unfold execRxRecv at h
  cases hx : s.rxq with
  | nil => simp only [recvByte_nil hx] at h; cases h; exact .holdReceive hx
  | cons b q => simp only [recvByte_cons hx] at h; cases h; exact .receive b q hx

theorem execActArm_next {s t : State} (h : execActArm s = .next t) : TransportNext s .actArm t := by
  cases h; exact .arm

theorem execActProbe_next {s t : State} (h : execActProbe s = .next t) : TransportNext s .actProbe t := by
  cases h; exact .probe

theorem execCrcCalc_next {s t : State} (h : execCrcCalc s = .next t) : CrcNext s t := by
  unfold execCrcCalc at h
  split at h <;> cases h
  · exact .compute (by assumption)
  · exact .invalid (by simpa using ‹¬ s.pbv = true›)

theorem packetByte_next {b : Byte} {s t : State} (h : packetByte b s = .next t) :
    PacketNext s b t ∨ t = s ∧ s.fsm ∈ [.idle, .waitHeader, .validate, .sendNak] := by
  unfold packetByte at h
  split at h <;> try (cases h; exact .inr ⟨rfl, by simp_all⟩)
  · cases h; exact .inl (.blk (by assumption))
  · cases h; exact .inl (.blkc (by assumption))
  · unfold storePayload at h
    split at h <;> cases h
    exact .inl (.payload (by assumption) (by assumption))
  · cases h; exact .inl (.crcHi (by assumption))
  · cases h; exact .inl (.crcLo (by assumption))

/-- A byte taken from the front in a reading state. -/
theorem packetByte_taken_next {b : Byte} {q : List Byte} {s t : State} (hq : s.rxq = b :: q)
    (hf : s.fsm ∈ [.readBlk, .readBlkc, .readPayload, .readCrcHi, .readCrcLo])
    (h : packetByte b { s with rxq := q } = .next t) : FramerNext s t := by
  rcases packetByte_next h with h | ⟨_, h⟩
  · exact .data b q t hq h
  · simp only [List.mem_cons, List.not_mem_nil, or_false] at hf h
    rcases hf with hf | hf | hf | hf | hf <;> simp [hf] at h

theorem wireData_next {b : Byte} {s t : State} (h : wireData b s = .next t) : FramerNext s t := by
  unfold wireData at h
  split at h <;> rename_i hf <;> first
    | (cases h; exact .hold)
    | (rcases takeByte_eq_next h with ⟨q, hq, h⟩ | rfl
       · exact packetByte_taken_next hq (by simp [hf]) h
       · exact .hold)

theorem execWireSoh_next {s t : State} (h : execWireSoh s = .next t) : FramerNext s t := by
  unfold execWireSoh at h
  split at h
  · rcases takeByte_eq_next h with ⟨q, hq, h⟩ | rfl
    · cases h; exact .soh q (by assumption) hq
    · exact .hold
  · exact wireData_next h

theorem execWireEot_next {s t : State} (h : execWireEot s = .next t) : FramerNext s t := by
  unfold execWireEot at h
  split at h
  · rcases takeByte_eq_next h with ⟨q, hq, h⟩ | rfl
    · cases h; exact .eot q (by assumption) hq
    · exact .hold
  · exact wireData_next h

theorem execWireNoise_next {b : Byte} {s t : State} (h : execWireNoise b s = .next t) : FramerNext s t := by
  unfold execWireNoise at h
  split at h
  · rcases takeByte_eq_next h with ⟨q, hq, h⟩ | rfl
    · cases h; exact .noise b q (by assumption) hq
    · exact .hold
  · exact wireData_next h

theorem validateStep_next {s : State} (hf : s.fsm = .validate) : FramerNext s (validateStep s) := by
  unfold validateStep
  split
  · rename_i h
    simp only [Bool.and_eq_true, crcOk, blkOk, beq_iff_eq] at h
    exact .accepted hf h.1 h.2
  · rename_i h
    simp only [Bool.and_eq_true, crcOk, blkOk, beq_iff_eq, not_and] at h
    exact .rejected hf h

theorem sendNakStep_next {s : State} (hf : s.fsm = .sendNak) : FramerNext s (sendNakStep s) := by
  unfold sendNakStep
  cases hx : s.txh with
  | none => simp only [sendByte_empty NAK hx]; exact .nak hf hx
  | some x => simp only [sendByte_full NAK hx]; exact .hold

theorem readStep_next {s t : State} (hf : s.fsm ∈ [.readBlk, .readBlkc, .readPayload, .readCrcHi, .readCrcLo])
    (h : readStep s = .next t) : FramerNext s t := by
  unfold readStep at h
  cases hq : s.rxq with
  | nil => simp only [recvByte_nil hq] at h; cases h; exact .hold
  | cons b q => simp only [recvByte_cons hq] at h; exact packetByte_taken_next hq hf h

theorem waitHeaderStep_next {s t : State} (h : waitHeaderStep s = .next t) : FramerNext s t := by
  unfold waitHeaderStep at h
  split at h
  · cases h; exact .hold
  · split at h
    · exact execWireSoh_next h
    · split at h
      · exact execWireEot_next h
      · exact execWireNoise_next h

theorem execPktRecv_next {s t : State} (h : execPktRecv s = .next t) : FramerNext s t := by
  unfold execPktRecv at h
  split at h <;> rename_i hf
  · cases h; exact .start hf
  · exact waitHeaderStep_next h
  · exact readStep_next (by simp [hf]) h
  · exact readStep_next (by simp [hf]) h
  · exact readStep_next (by simp [hf]) h
  · exact readStep_next (by simp [hf]) h
  · exact readStep_next (by simp [hf]) h
  · cases h; exact validateStep_next hf
  · cases h; exact sendNakStep_next hf

theorem stageStep_next {s t : State} (hw : s.wseq = .stage) (h : stageStep s = .next t) : WriteNext s t := by
  unfold stageStep at h
  split at h
  · cases h
  · rename_i b hb
    obtain ⟨hi, rfl⟩ := Vector.getElem?_eq_some_iff.mp hb
    cases h
    exact .stage hw hi

theorem execNvmWrblk_next {s t : State} (h : execNvmWrblk s = .next t) : WriteNext s t := by
  unfold execNvmWrblk at h
  split at h <;> rename_i hw
  · cases h
    unfold beginWrite
    split
    · split
      · exact .start hw (by assumption) (by assumption)
      · exact .range hw (by assumption) (by assumption)
    · exact .invalid hw (by simpa using ‹¬ s.pbv = true›)
  · exact stageStep_next hw h
  · cases h
    unfold commitStep
    split
    · exact .holdCommit hw (by assumption)
    · rename_i hb
      split
      · exact .commit hw (by simpa using hb) (by assumption)
      · exact .committed hw (by simpa using hb) (by simpa using ‹¬ s.acc ≠ 0›)
  · unfold verifyStep at h
    split at h <;> cases h
    cases hv : verifyOk s with
    | true => exact .verified hw (by assumption) hv
    | false => exact .mismatch hw (by assumption) hv
  · cases h

theorem execNvmFlag_next {s t : State} (h : execNvmFlag s = .next t) : FlagNext s t := by
  unfold execNvmFlag at h
  split at h <;> rename_i hw <;> cases h
  · unfold beginFlag
    split
    · exact .hold (.inl hw) (by assumption)
    · exact .issue hw (by simpa using ‹¬ s.nvmBusy = true›)
  · unfold flagStep
    split
    · exact .hold (.inr hw) (by assumption)
    · exact .finish hw (by simpa using ‹¬ s.nvmBusy = true›)

/-- What an instruction of each family can answer. -/
theorem exec_next {i : Instr} {s t : State} (h : exec i s = .next t) :
    TransportNext s i t ∨ (i = .crcCalc ∧ CrcNext s t) ∨ ((i = .pktRecv ∨ i.space = .wire) ∧ FramerNext s t) ∨
    (i = .nvmWrblk ∧ WriteNext s t) ∨ (i = .nvmFlag ∧ FlagNext s t) := by
  cases i with
  | txSend b => exact .inl (execTxSend_next h)
  | rxRecv => exact .inl (execRxRecv_next h)
  | actArm => exact .inl (execActArm_next h)
  | actProbe => exact .inl (execActProbe_next h)
  | crcCalc => exact .inr (.inl ⟨rfl, execCrcCalc_next h⟩)
  | pktRecv => exact .inr (.inr (.inl ⟨.inl rfl, execPktRecv_next h⟩))
  | nvmWrblk => exact .inr (.inr (.inr (.inl ⟨rfl, execNvmWrblk_next h⟩)))
  | nvmFlag => exact .inr (.inr (.inr (.inr ⟨rfl, execNvmFlag_next h⟩)))
  | wireSoh => exact .inr (.inr (.inl ⟨.inr rfl, execWireSoh_next h⟩))
  | wireEot => exact .inr (.inr (.inl ⟨.inr rfl, execWireEot_next h⟩))
  | wireNoise b => exact .inr (.inr (.inl ⟨.inr rfl, execWireNoise_next h⟩))

/-- The next states of a step of the host's program while no command is in progress (R250). -/
inductive HostNext (s : State) : State → Prop where
  | none : HostNext s s
  | issued (w : Word) (i : Instr) (n k : Nat) (hd : decodeCmd w = .ok i) :
      HostNext s { s with cmd := some w, hpc := .stmt n k, issued := true }
  | illegal (w : Word) : HostNext s (raiseFault .illegalCmd (.word w) s)
  | moved (n k : Nat) : HostNext s { s with hpc := .stmt n k }
  | led (n : Nat) (l : Led) : HostNext s { s with led := l, hpc := .stmt n 0 }
  | waiting : HostNext s { s with pullup := true }
  | released (n : Nat) : HostNext s { s with pullup := true, hpc := .stmt n 0 }
  | update (n : Nat) : HostNext s { s with pullup := true, mode := .update, hpc := .stmt n 0 }
  | transfer (p : Bool) (hf : freshBoot s) : HostNext s { s with pullup := p, mode := .app, hpc := .app s.cfg.appStart }
  | reset (r : ResetDraw) : HostNext s (deviceReset r s)

theorem issue_next {w : Word} {n k : Nat} {s : State} : HostNext s (issue w (.stmt n k) s) := by
  rcases issue_cases w (.stmt n k) s with ⟨i, hd, h⟩ | ⟨e, _, h⟩ <;> rw [h]
  · exact .issued w i n k hd
  · exact .illegal w

theorem stmtStep_next {n k : Nat} {ctrl : Bool} {r : ResetDraw} {s t : State} {st : HostStmt}
    (h : stmtStep n k ctrl r s st = .next t) : HostNext s t := by
  cases st with
  | command w => cases h; exact issue_next
  | entry =>
    simp only [stmtStep, entryStep] at h
    split at h
    · split at h
      · cases h; exact .update (n + 1)
      · obtain ⟨hf, rfl⟩ := transferToApp_eq_next h
        exact .transfer true hf
    · cases h
  | jeqRes imm m => cases h; exact .moved _ 0
  | jmp m => cases h; exact .moved m 0
  | poll cnt m =>
    cases h
    unfold pollStep
    split
    · exact .moved m 0
    · split
      · exact issue_next
      · exact .moved (n + 1) 0
  | ledToggle => cases h; exact .led (n + 1) s.led.toggle
  | ledOn => cases h; exact .led (n + 1) .on
  | waitCtrl =>
    cases h
    split
    · exact .waiting
    · exact .released (n + 1)
  | reset => cases h; exact .reset r
  | jmpApp => obtain ⟨hf, rfl⟩ := transferToApp_eq_next h; exact .transfer s.pullup hf

theorem hostStep_next {ctrl : Bool} {r : ResetDraw} {s t : State} (h : hostStep ctrl r s = .next t) :
    t = s ∨ (s.cmd = none ∧ (∃ n k, s.hpc = .stmt n k) ∧ HostNext s t) := by
  unfold hostStep at h
  split at h
  · cases h; exact .inl rfl
  · rename_i hb
    have hc : s.cmd = none := by simpa using hb
    split at h
    · cases h; exact .inl rfl
    · cases h; exact .inl rfl
    · rename_i n k hh
      split at h
      · cases h; exact .inl rfl
      · exact .inr ⟨hc, ⟨n, k, hh⟩, stmtStep_next h⟩

theorem issueStep_next {w : Word} {s t : State} (h : issueStep w s = .next t) :
    t = s ∨ (s.cmd = none ∧ (∃ n k, s.hpc = .stmt n k) ∧ HostNext s t) := by
  unfold issueStep at h
  split at h
  · cases h; exact .inl rfl
  · rename_i hb
    have hc : s.cmd = none := by simpa using hb
    split at h
    · cases h
    · cases h
    · rename_i n k hh
      cases h
      refine .inr ⟨hc, ⟨n, k, hh⟩, ?_⟩
      rw [hh]
      exact issue_next

/-- The next states of the other agents and of a read (R80, R137, R138, R246, R260, R290). -/
inductive OutsideNext (s : State) : State → Prop where
  | none : OutsideNext s s
  | badRead (n : Nat) : OutsideNext s (raiseFault .pbInvalid (.register n) s)
  | edge : OutsideNext s { s with act := s.act || s.armed }
  | byte (b : Byte) : OutsideNext s { s with act := s.act || s.armed, rxq := s.rxq ++ [b] }
  | drain (b : Byte) (h : s.txh = some b) : OutsideNext s { s with txlog := s.txlog ++ [b], txh := Option.none }
  | page (page : Nat) (buf draw : List Byte) (hb : s.nvmBusy = true) (hp : s.pending = some (.flash page buf))
      (hr : page + buf.length ≤ s.cfg.flashSize) :
      OutsideNext s { s with
        flash := s.flash.writeBytes page (oracleBytes draw buf), pgbuf := blankPage s.cfg
        pending := Option.none, nvmBusy := false }
  | flagByte (addr : Nat) (v : Byte) (draw : List Byte) (hb : s.nvmBusy = true)
      (hp : s.pending = some (.ee addr v)) (hr : addr < s.cfg.eepromSize) :
      OutsideNext s { s with
        ee := s.ee.writeBytes addr (oracleBytes draw [v]), pending := Option.none, nvmBusy := false }
  | request (entry : Nat) (hh : s.hpc = .app entry) (hb : s.nvmBusy = false) :
      OutsideNext s { s with hpc := .appReset, pending := some (.ee s.cfg.flagAddr ERASED), nvmBusy := true }
  | reset (r : ResetDraw) : OutsideNext s (deviceReset r s)

theorem appStep_next (r : ResetDraw) (s : State) : OutsideNext s (appStep r s) := by
  unfold appStep
  split
  · exact .none
  · split
    · exact .none
    · exact .request _ (by assumption) (by simpa using ‹¬ s.nvmBusy = true›)
  · split
    · exact .none
    · exact .reset r

/-- What a step can be, said once: a step that changes nothing but the script; BLOCK running an instruction, or
raising ILLEGAL_CMD on a word that no host can have issued; HOST; or another agent. `u` is the state whose script
has moved on. -/
theorem step_next {s t : State} (h : step s = .next t) :
    t = takeEvent s ∨
    (s.fault = .none ∧ ∃ w i, s.cmd = some w ∧ decodeCmd w = .ok i ∧
      exec (headerOr i (takeEvent s)) (takeEvent s) = .next t) ∨
    (s.fault = .none ∧ ∃ w e, s.cmd = some w ∧ decodeCmd w = .error e ∧
      t = raiseFault .illegalCmd (.word w) (takeEvent s)) ∨
    (s.fault = .none ∧ s.cmd = none ∧ (∃ n k, s.hpc = .stmt n k) ∧ HostNext (takeEvent s) t) ∨
    (s.fault = .none ∧ OutsideNext (takeEvent s) t) := by
  obtain ⟨_, ⟨_, h⟩ | ⟨hf, h⟩⟩ := step_eq_next h
  · exact .inl (afterFault_eq_next h).2
  rw [← takeEvent_cmd, ← takeEvent_hpc]
  generalize takeEvent s = u at *
  cases he : nextEvent s with
  | block =>
    rw [he] at h
    rcases blockStep_eq_next h with ⟨_, rfl⟩ | ⟨w, i, hc, hd, h⟩ | ⟨w, e, hc, hd, rfl⟩
    · exact .inl rfl
    · exact .inr (.inl ⟨hf, w, i, hc, hd, h⟩)
    · exact .inr (.inr (.inl ⟨hf, w, e, hc, hd, rfl⟩))
  | host c r =>
    rw [he] at h
    rcases hostStep_next h with rfl | ⟨hc, hh, h⟩
    · exact .inl rfl
    · exact .inr (.inr (.inr (.inl ⟨hf, hc, hh, h⟩)))
  | issue w =>
    rw [he] at h
    rcases issueStep_next h with rfl | ⟨hc, hh, h⟩
    · exact .inl rfl
    · exact .inr (.inr (.inr (.inl ⟨hf, hc, hh, h⟩)))
  | hostRead n =>
    rw [he] at h
    obtain ⟨_, _, rfl⟩ | ⟨_, h⟩ := readView_eq_next h
    · exact .inl rfl
    · cases h; exact .inr (.inr (.inr (.inr ⟨hf, .badRead n⟩)))
  | app r => rw [he] at h; cases h; exact .inr (.inr (.inr (.inr ⟨hf, appStep_next r u⟩)))
  | rxEdge => rw [he] at h; cases h; exact .inr (.inr (.inr (.inr ⟨hf, .edge⟩)))
  | rxByte b => rw [he] at h; cases h; exact .inr (.inr (.inr (.inr ⟨hf, .byte b⟩)))
  | txDrain =>
    rw [he] at h
    cases h
    unfold txDrain
    split
    · exact .inl rfl
    · exact .inr (.inr (.inr (.inr ⟨hf, .drain _ (by assumption)⟩)))
  | nvm d =>
    rw [he] at h
    rcases nvmComplete_eq_next h with ⟨p, b, h1, h2, h3, rfl⟩ | ⟨a, v, h1, h2, h3, rfl⟩ | rfl
    · exact .inr (.inr (.inr (.inr ⟨hf, .page p b d h1 h2 h3⟩)))
    · exact .inr (.inr (.inr (.inr ⟨hf, .flagByte a v d h1 h2 h3⟩)))
    · exact .inl rfl
  | reset r => rw [he] at h; cases h; exact .inr (.inr (.inr (.inr ⟨hf, .reset r⟩)))

end Sys2Proof.Machine
end

