-- ==== Sys2Proof/Laws/PerInstr.lean ====
section
/-! SUPPORT. A statement per instruction, as syntax: where its bits stand in the opcode table. One lemma per
constructor. -/

namespace Sys2Proof

/-- The mask and the match of an instruction's row in spec/opcode_table.json, over the row's bits. -/
def Instr.tableRow : Instr → Word × Word
  | .txSend _ => (0xFF00, 0x0100)
  | .rxRecv => (0xFFFF, 0x0200)
  | .actArm => (0xFFFF, 0x0300)
  | .actProbe => (0xFFFF, 0x0400)
  | .crcCalc => (0xFFFF, 0x1000)
  | .pktRecv => (0xFFFF, 0x2000)
  | .nvmWrblk => (0xFFFF, 0x3000)
  | .nvmFlag => (0xFFFF, 0x3100)
  | .wireSoh => (0x00FF, 0x0001)
  | .wireEot => (0x00FF, 0x0004)
  | .wireNoise _ => (0x0000, 0x0000)

end Sys2Proof

namespace Sys2Proof.Laws.Encoding

/-- A well-formed instruction's bits lie in its own row, and its bytes are as many as the row's bits say (R100, R101,
R108, R111). -/
def Statement (i : Instr) : Prop :=
  i.WellFormed →
    tableWord i &&& i.tableRow.1 = i.tableRow.2 ∧ (encode i).length * 8 = i.nbits ∧ (tableWord i).toNat < 2 ^ i.nbits

theorem txSend (imm8 : Byte) : Statement (.txSend imm8) := by
  intro _
  revert imm8
  decide +kernel

theorem rxRecv : Statement .rxRecv := fun _ => by decide
theorem actArm : Statement .actArm := fun _ => by decide
theorem actProbe : Statement .actProbe := fun _ => by decide
theorem crcCalc : Statement .crcCalc := fun _ => by decide
theorem pktRecv : Statement .pktRecv := fun _ => by decide
theorem nvmWrblk : Statement .nvmWrblk := fun _ => by decide
theorem nvmFlag : Statement .nvmFlag := fun _ => by decide
theorem wireSoh : Statement .wireSoh := fun _ => by decide
theorem wireEot : Statement .wireEot := fun _ => by decide

theorem wireNoise (byte : Byte) : Statement (.wireNoise byte) := by
  intro _
  revert byte
  decide +kernel

end Sys2Proof.Laws.Encoding
end

