-- ==== Sys2Proof/Machine/Assembler.lean ====
section
/-! DEFINITION. The assembler text of commands and pseudo-instructions (30_encoding.md rules R106, R107) and of host
programs with labels (48_host_software.md rule R250). What the rules leave open about blanks and literals is in log
entry 24. -/

namespace Sys2Proof.Machine

/-- A word of the text. -/
abbrev Token := List Char

/-- Why a line or a program does not assemble. -/
inductive AsmReject where
  | noCommand
  | unknownMnemonic
  | badOperand
  | undefinedLabel
deriving DecidableEq, Repr

/-- A `;` starts a comment that runs to the end of the line (R106). -/
def stripComment (line : List Char) : List Char := line.takeWhile (· ≠ ';')

/-- Blanks separate tokens; a comma separates operands (R250). -/
def isBlank (c : Char) : Bool := c = ' ' || c = '\t' || c = ','

/-- The tokens of a line, `cur` being the (reversed) token at hand. -/
def tokensFrom (cur : Token) : List Char → List Token
  | [] => if cur = [] then [] else [cur.reverse]
  | c :: rest =>
    if isBlank c then
      if cur = [] then tokensFrom [] rest else cur.reverse :: tokensFrom [] rest
    else tokensFrom (c :: cur) rest

/-- The tokens of a line, its comment left out. -/
def tokens (line : String) : List Token := tokensFrom [] (stripComment line.toList)

/-- The value of a digit in a base. -/
def digitValue (base : Nat) (c : Char) : Option Nat :=
  let v :=
    if '0' ≤ c ∧ c ≤ '9' then c.toNat - '0'.toNat
    else if 'a' ≤ c ∧ c ≤ 'f' then c.toNat - 'a'.toNat + 10
    else if 'A' ≤ c ∧ c ≤ 'F' then c.toNat - 'A'.toNat + 10
    else base
  if v < base then some v else none

/-- Digits in a base, most significant first, onto `acc`. -/
def digitsValue (base acc : Nat) : List Char → Option Nat
  | [] => some acc
  | c :: rest =>
    match digitValue base c with
    | none => none
    | some v => digitsValue base (acc * base + v) rest

/-- A literal: `0x` and hexadecimal digits, or decimal digits (R17, R106). -/
def literal (t : Token) : Option Nat :=
  match t with
  | '0' :: 'x' :: d :: ds => digitsValue 16 0 (d :: ds)
  | d :: ds => digitsValue 10 0 (d :: ds)
  | [] => none

/-- The symbols of rule R106. -/
def symbols (c : Config) : List (String × Byte) :=
  [("SOH", SOH), ("EOT", EOT), ("ACK", ACK), ("NAK", NAK), ("READY_PROBE", c.readyProbe)]

/-- The operand of TX.SEND: a byte literal or a symbol (R106). -/
def byteOperand (c : Config) (t : Token) : Option Byte :=
  match (symbols c).find? (fun p => p.1.toList = t) with
  | some p => some p.2
  | none =>
    match literal t with
    | some v => if v < 256 then some (BitVec.ofNat 8 v) else none
    | none => none

/-- The mnemonics that take no operand, and the pseudo-instructions, with their words (R101, R107). -/
def plainMnemonics (c : Config) : List (String × Word) :=
  [ ("RX.RECV", tableWord .rxRecv), ("ACT.ARM", tableWord .actArm), ("ACT.PROBE", tableWord .actProbe),
    ("CRC.CALC", tableWord .crcCalc), ("PKT.RECV", tableWord .pktRecv), ("NVM.WRBLK", tableWord .nvmWrblk),
    ("NVM.FLAG", tableWord .nvmFlag), ("SEND.ACK", tableWord (.txSend ACK)), ("SEND.NAK", tableWord (.txSend NAK)),
    ("SEND.PROBE", tableWord (.txSend c.readyProbe)) ]

/-- A command line, as tokens, to its word (R106, R107). -/
def assembleTokens (c : Config) : List Token → Except AsmReject Word
  | [] => .error .noCommand
  | [m] =>
    match (plainMnemonics c).find? (fun p => p.1.toList = m) with
    | some p => .ok p.2
    | none => .error .unknownMnemonic
  | [m, t] =>
    if m = "TX.SEND".toList then
      match byteOperand c t with
      | some b => .ok (tableWord (.txSend b))
      | none => .error .badOperand
    else .error .unknownMnemonic
  | _ :: _ :: _ :: _ => .error .unknownMnemonic

/-- A command line to its word (R106). -/
def assembleLine (c : Config) (line : String) : Except AsmReject Word := assembleTokens c (tokens line)

/-- A line's label, if its first token ends in `:` (R250), and the tokens after it. -/
def splitLabel : List Token → Option Token × List Token
  | [] => (none, [])
  | t :: rest => if t.getLast? = some ':' then (some t.dropLast, rest) else (none, t :: rest)

/-- The labels of a program with the position of the statement each names, from position `at` on (R250). -/
def labelsFrom (pos : Nat) : List (Option Token × List Token) → List (Token × Nat)
  | [] => []
  | (l, body) :: rest =>
    let here := match l with
      | none => []
      | some name => [(name, pos)]
    here ++ labelsFrom (if body = [] then pos else pos + 1) rest

/-- The position a label names. -/
def resolve (labels : List (Token × Nat)) (t : Token) : Except AsmReject Nat :=
  match labels.find? (fun p => p.1 = t) with
  | some p => .ok p.2
  | none => .error .undefinedLabel

/-- The count of `POLL`: a literal, or `HANDSHAKE_POLLS` (R250, R251). -/
def pollCount (c : Config) (t : Token) : Except AsmReject Nat :=
  if t = "HANDSHAKE_POLLS".toList then .ok c.handshakePolls
  else match literal t with
    | some n => .ok n
    | none => .error .badOperand

/-- The 16-bit literal of `JEQ` (R250). -/
def wordOperand (t : Token) : Except AsmReject Word :=
  match literal t with
  | some v => if v < 65536 then .ok (BitVec.ofNat 16 v) else .error .badOperand
  | none => .error .badOperand

/-- The host statements that take no operand (R250). -/
def plainStatements : List (String × HostStmt) :=
  [ ("ENTRY", .entry), ("LED.TOGGLE", .ledToggle), ("LED.ON", .ledOn), ("WAIT.CTRL", .waitCtrl), ("RESET", .reset),
    ("JMP.APP", .jmpApp) ]

/-- One statement of a host program (R250): a host statement, or else a command line. -/
def assembleStatement (c : Config) (labels : List (Token × Nat)) (ts : List Token) : Except AsmReject HostStmt :=
  match ts with
  | [m] =>
    match plainStatements.find? (fun p => p.1.toList = m) with
    | some p => .ok p.2
    | none => (assembleTokens c [m]).map .command
  | [m, l] =>
    if m = "JMP".toList then (resolve labels l).map .jmp
    else (assembleTokens c [m, l]).map .command
  | [m, n, l] =>
    if m = "POLL".toList then do return .poll (← pollCount c n) (← resolve labels l)
    else .error .unknownMnemonic
  | [m, r, v, l] =>
    if m = "JEQ".toList ∧ r = "RES".toList then do return .jeqRes (← wordOperand v) (← resolve labels l)
    else .error .unknownMnemonic
  | _ => .error .unknownMnemonic

/-- The statements of a program's lines, in order; a line with no statement leaves none. -/
def assembleBodies (c : Config) (labels : List (Token × Nat)) : List (List Token) → Except AsmReject (List HostStmt)
  | [] => .ok []
  | [] :: rest => assembleBodies c labels rest
  | (t :: ts) :: rest => do
    return (← assembleStatement c labels (t :: ts)) :: (← assembleBodies c labels rest)

/-- A host program's text, line by line (R250). -/
def assembleProgram (c : Config) (lines : List String) : Except AsmReject (List HostStmt) :=
  let parts := lines.map fun l => splitLabel (tokens l)
  assembleBodies c (labelsFrom 0 parts) (parts.map (·.2))

end Sys2Proof.Machine
end

