-- ==== Sys2Proof/Tests/Slice0.lean ====
section
/-! SUPPORT. The model's own tests. Expected results are the spec's: the words of 30_encoding.md and the vectors of
95_test_vectors.md, each named. Then one witness per obligation that has hypotheses: a state and operands that meet
all of them. -/

namespace Sys2Proof.Tests

open Sys2Proof.Machine
open Sys2Proof.Safety

-- One theorem at a time: side by side, the kernel evaluations need more threads than the memory limit allows.
set_option Elab.async false

/-! ## Helpers -/

/-- The next state a step answers, if it answers one. -/
def after : Out → Option State
  | .next t => some t
  | .fault _ => none
  | .refused _ => none

/-- A step answers a next state where `after` finds one. -/
theorem next_of {o : Out} (h : (after o).isSome = true) : ∃ t, o = .next t := by
  cases o with
  | next t => exact ⟨t, rfl⟩
  | fault _ => cases h
  | refused _ => cases h

/-- The refusal a step answers, if it answers one. -/
def refusal : Out → Option Refusal
  | .next _ => none
  | .fault _ => none
  | .refused r => some r

/-- The reset state with the events `es` to come. -/
def scripted (es : List Event) : State := { State.reset with script := es }

/-- Command `i` in progress and BLOCK to step. -/
def running (i : Instr) : State := { scripted [.block] with cmd := some (tableWord i), issued := true }

/-- PKT.RECV in framer state `f` with `q` on the line. -/
def framing (f : Fsm) (q : List Byte) : State := { running .pktRecv with fsm := f, rxq := q }

/-- NVM.WRBLK in writer state `w` with a valid block. -/
def writing (w : Wseq) : State := { running .nvmWrblk with wseq := w, pbv := true }

/-- The host at statement `n` of the program `p`, to step with the control input at `ctrl`. -/
def hosting (p : List HostStmt) (n k : Nat) (ctrl : Bool) : State :=
  { scripted [.host ctrl default] with prog := p, hpc := .stmt n k }

/-- The payload `I` of the vectors: byte `i` is `i`. -/
def payloadI : Vector Byte 128 := Vector.ofFn fun i => BitVec.ofNat 8 i.val

/-- The draws of a device reset that delivers the byte in `TXH` and leaves a cut commit alone. -/
def delivered : ResetDraw := ⟨true, []⟩

/-! ## Well-formedness -/

/-- The two markers are not noise (R111, R114). -/
theorem test_noise_is_not_soh : ¬ (Instr.wireNoise 0x01).WellFormed := by decide
theorem test_noise_is_not_eot : ¬ (Instr.wireNoise 0x04).WellFormed := by decide
theorem test_noise_may_be_neighbours :
    (Instr.wireNoise 0x00).WellFormed ∧ (Instr.wireNoise 0x02).WellFormed ∧ (Instr.wireNoise 0x03).WellFormed ∧
      (Instr.wireNoise 0x05).WellFormed ∧ (Instr.wireNoise 0xFF).WellFormed := by decide

/-! ## Decoding (95_test_vectors.md section 2.1; 30_encoding.md R101, R111, R114) -/

theorem test_decode_txSend : decodeCmd 0b0000000101000011#16 = .ok (.txSend 0x43) := by decide
theorem test_decode_txSend_zero : decodeCmd 0x0100 = .ok (.txSend 0x00) := by decide
theorem test_decode_rxRecv : decodeCmd 0b0000001000000000#16 = .ok .rxRecv := by decide
theorem test_decode_actArm : decodeCmd 0b0000001100000000#16 = .ok .actArm := by decide
theorem test_decode_actProbe : decodeCmd 0b0000010000000000#16 = .ok .actProbe := by decide
theorem test_decode_crcCalc : decodeCmd 0b0001000000000000#16 = .ok .crcCalc := by decide
theorem test_decode_pktRecv : decodeCmd 0b0010000000000000#16 = .ok .pktRecv := by decide
theorem test_decode_nvmWrblk : decodeCmd 0b0011000000000000#16 = .ok .nvmWrblk := by decide
theorem test_decode_nvmFlag : decodeCmd 0b0011000100000000#16 = .ok .nvmFlag := by decide
theorem test_decode_wireSoh : decodeWire 0b00000001#8 = .wireSoh := by decide
theorem test_decode_wireEot : decodeWire 0b00000100#8 = .wireEot := by decide
theorem test_decode_wireNoise : decodeWire 0x18 = .wireNoise 0x18 ∧ decodeWire 0x02 = .wireNoise 0x02 := by decide

theorem test_decode_illegal :
    decodeCmd 0x0201 = .error (.nonzeroImm 0x02 0x01) ∧ decodeCmd 0x3101 = .error (.nonzeroImm 0x31 0x01) ∧
      decodeCmd 0x0000 = .error (.unknownOp 0x00) ∧ decodeCmd 0x0500 = .error (.unknownOp 0x05) ∧
      decodeCmd 0x3200 = .error (.unknownOp 0x32) ∧ decodeCmd 0xFFFF = .error (.unknownOp 0xFF) := by decide

/-- OP is the first byte of a command word (R100), and what follows an instruction is left alone. -/
theorem test_decode_bytes :
    decode .command [0x01, 0x43, 0x99] = .ok (.txSend 0x43, [0x99]) ∧ decode .wire [0x01, 0x02] = .ok (.wireSoh, [0x02]) ∧
      decode .command [0x01] = .error .truncated := by decide

theorem test_decodeTableWord :
    decodeTableWord 16 0x01FF = some (.txSend 0xFF) ∧ decodeTableWord 16 0x3100 = some .nvmFlag ∧
      decodeTableWord 16 0x0201 = none ∧ decodeTableWord 8 0x04 = some .wireEot ∧
      decodeTableWord 8 0x00 = some (.wireNoise 0x00) := by decide

/-! ## Assembler text (R106, R107, R250, R251) -/

theorem test_assemble_operand : assembleLine Config.ex "TX.SEND 0x43 ; 'C'" = .ok 0x0143 := by decide +kernel
theorem test_assemble_decimal : assembleLine Config.ex "  TX.SEND 255" = .ok 0x01FF := by decide +kernel
theorem test_assemble_plain : assembleLine Config.ex "PKT.RECV" = .ok 0x2000 := by decide +kernel
theorem test_assemble_pseudo :
    assembleLine Config.ex "SEND.ACK" = .ok 0x0106 ∧ assembleLine Config.ex "SEND.NAK" = .ok 0x0115 ∧
      assembleLine Config.ex "SEND.PROBE" = .ok 0x0143 := by decide +kernel
theorem test_assemble_probe_plain :
    assembleLine { Config.ex with readyProbe := 0x15 } "SEND.PROBE" = .ok 0x0115 := by decide +kernel

/-- The text of rule R251 assembles to the reference program. -/
theorem test_assemble_reference :
    assembleProgram Config.ex
      [ "BOOT:   ENTRY", "INIT:   ACT.ARM", "HS:     LED.TOGGLE", "        SEND.PROBE",
        "        POLL HANDSHAKE_POLLS, ACTIVE", "        JMP HS", "ACTIVE: LED.ON", "LOOP:   PKT.RECV",
        "        JEQ RES, 0x0002, END", "        NVM.WRBLK", "        JEQ RES, 0x0001, GOOD", "        SEND.NAK",
        "        JMP LOOP", "GOOD:   SEND.ACK", "        JMP LOOP", "END:    SEND.ACK", "DONE:   NVM.FLAG",
        "        WAIT.CTRL", "        RESET" ] = .ok (referenceProgram Config.ex) := by decide +kernel

/-! ## One step of each instruction (95_test_vectors.md) -/

/-- TR1. -/
theorem test_txSend_writes : (after (step (running (.txSend 0x06)))).map (fun t => (t.txh, t.resW, t.cmd)) =
    some (some 0x06, false, none) := by decide +kernel
/-- TR2, the hold. -/
theorem test_txSend_holds :
    (after (step { running (.txSend 0x15) with txh := some 0x06 })).map (fun t => (t.txh, t.cmd)) =
      some (some 0x06, some 0x0115) := by decide +kernel
/-- TR3. -/
theorem test_rxRecv_front : (after (step { running .rxRecv with rxq := [0x01, 0x02] })).map (fun t => (t.res, t.rxq)) =
    some (0x0001, [0x02]) := by decide +kernel
/-- TR4: the byte is zero-extended. -/
theorem test_rxRecv_extends : (after (step { running .rxRecv with rxq := [0xAB] })).map (fun t => (t.res, t.rxq)) =
    some (0x00AB, []) := by decide +kernel
/-- TR7: arming clears the latch. -/
theorem test_actArm_clears :
    (after (step { running .actArm with armed := true, act := true })).map (fun t => (t.armed, t.act)) =
      some (true, false) := by decide +kernel
/-- TR6: a probe gives 1 and does not clear the latch. -/
theorem test_actProbe_keeps :
    (after (step { running .actProbe with armed := true, act := true })).map (fun t => (t.res, t.act)) =
      some (0x0001, true) := by decide +kernel
/-- TR5: an unarmed latch stays clear when a byte arrives. -/
theorem test_rxByte_unarmed : (after (step (scripted [.rxByte 0x01]))).map (fun t => (t.act, t.rxq)) =
    some (false, [0x01]) := by decide +kernel
/-- TR9. -/
theorem test_txDrain : (after (step { scripted [.txDrain] with txh := some 0x43 })).map (fun t => (t.txlog, t.txe)) =
    some ([0x43], true) := by decide +kernel

/-- The catalogue check value over "123456789" (section 2.3), and rule R155's first byte of CK2. -/
theorem test_crc_check : crcFrom crcInit [0x31, 0x32, 0x33, 0x34, 0x35, 0x36, 0x37, 0x38, 0x39] = 0x31C3 ∧
    crcByte 0x0000 0x01 = 0x1021 := by decide +kernel

theorem crc_I0 : crcFrom 0x0000 ((List.range 32).map fun i => BitVec.ofNat 8 i) = 0xD2FF := by decide +kernel
theorem crc_I1 : crcFrom 0xD2FF ((List.range 32).map fun i => BitVec.ofNat 8 (32 + i)) = 0x2BF5 := by decide +kernel
theorem crc_I2 : crcFrom 0x2BF5 ((List.range 32).map fun i => BitVec.ofNat 8 (64 + i)) = 0x65A9 := by decide +kernel
theorem crc_I3 : crcFrom 0x65A9 ((List.range 32).map fun i => BitVec.ofNat 8 (96 + i)) = 0xE80A := by decide +kernel

/-- CK9: the CRC of the 128-byte block `I`, in four parts. -/
theorem test_crc_I : crc16 payloadI = 0xE80A := by
  have h : payloadI.toList =
      (List.range 32).map (fun i => BitVec.ofNat 8 i) ++ ((List.range 32).map (fun i => BitVec.ofNat 8 (32 + i)) ++
        ((List.range 32).map (fun i => BitVec.ofNat 8 (64 + i)) ++
          (List.range 32).map fun i => BitVec.ofNat 8 (96 + i))) := by decide +kernel
  have step (r : Word) (xs ys : List Byte) : crcFrom r (xs ++ ys) = crcFrom (crcFrom r xs) ys := List.foldl_append
  rw [crc16, h, step, step, step, crcInit, crc_I0, crc_I1, crc_I2, crc_I3]

/-- WR8: CRC.CALC with no valid block. -/
theorem test_crcCalc_invalid :
    (after (step (running .crcCalc))).map (fun t => (t.fault, t.faultRec, t.res)) =
      some (.pbInvalid, .word 0x1000, 0x0000) := by decide +kernel
/-- P1's second command. -/
theorem test_crcCalc_I : (after (exec .crcCalc { running .crcCalc with pbv := true, pb := payloadI })).map (·.res) =
    some 0xE80A := by
  simp [exec, execCrcCalc, after, endCmd, setRes, test_crc_I]

/-- R166: PKT.RECV invalidates the last block. -/
theorem test_pktRecv_starts :
    (after (step { framing .idle [0x04] with pbv := true })).map (fun t => (t.fsm, t.pbv, t.idx, t.rxq)) =
      some (.waitHeader, false, 0, [0x04]) := by decide +kernel
/-- FR16: the low checksum byte, with 0x92 received. -/
theorem test_pktRecv_crcLo :
    (after (step { framing .readCrcLo [0x95] with crcrx := 0x9200 })).map (fun t => (t.crcrx, t.fsm)) =
      some (0x9295, .validate) := by decide +kernel
/-- FR1's start of block. -/
theorem test_wireSoh : (after (step (framing .waitHeader [0x01, 0x01]))).map (fun t => (t.fsm, t.rxq)) =
    some (.readBlk, [0x01]) := by decide +kernel
/-- FR11: inside a packet 0x01 is data. -/
theorem test_wireSoh_data : (after (exec .wireSoh (framing .readBlkc [0x01]))).map (fun t => (t.blkc, t.fsm)) =
    some (0x01, .readPayload) := by decide +kernel
/-- FR5, and FR6's last byte: what follows stays queued. -/
theorem test_wireEot : (after (step (framing .waitHeader [0x04, 0x01]))).map (fun t => (t.res, t.rxq, t.txlog, t.cmd)) =
    some (0x0002, [0x01], [], none) := by decide +kernel
/-- FR6's first byte. -/
theorem test_wireNoise : (after (step (framing .waitHeader [0x43, 0x06]))).map (fun t => (t.fsm, t.rxq)) =
    some (.waitHeader, [0x06]) := by decide +kernel

/-- WR5. -/
theorem test_nvmWrblk_invalid :
    (after (step (running .nvmWrblk))).map (fun t => (t.fault, t.cursor, t.resW)) =
      some (.pbInvalid, 0x0200, false) := by decide +kernel
/-- WR6, the third block. -/
theorem test_nvmWrblk_range :
    (after (step { writing .idle with
      cfg := { Config.ex with flashSize := 0x0300 }, cursor := 0x0300 })).map (fun t => (t.fault, t.faultRec, t.cursor)) =
      some (.cursorRange, .wordCursor 0x3000 0x0300, 0x0300) := by decide +kernel
/-- WR9, the write and its completion. -/
theorem test_nvmFlag_issues :
    (after (step (running .nvmFlag))).map (fun t => (t.pending, t.nvmBusy, t.wseq)) =
      some (some (.ee 0x00 0x00), true, .flag) := by decide +kernel
theorem test_nvmFlag_completes :
    (after (step { scripted [.nvm []] with
      cmd := some 0x3100, wseq := .flag, pending := some (.ee 0x00 0x00), nvmBusy := true, ee := [(0, 0xFF)] })).map
        (fun t => (eeByte 0 t, t.nvmBusy)) = some (0x00, false) := by decide +kernel

/-- WR3: the oracle leaves 0xFA at 0x0205 of the page, and the rest of the page nominal. -/
theorem test_oracle_draw :
    (after (step { scripted [.nvm [0, 1, 2, 3, 4, 0xFA]] with
      pending := some (.flash 0x0200 (payloadI.toList.take 64)), nvmBusy := true })).map
        (fun t => (flashByte 0x0204 t, flashByte 0x0205 t, flashByte 0x0206 t, flashByte 0x023F t)) =
      some (4, 0xFA, 6, 0x3F) := by decide +kernel

/-! ## The host, the entry decision and the reset -/

/-- EN1 to EN5: the flag byte and the control input's level to the mode. -/
def enters (flag : Byte) (ctrl : Bool) : Option Mode :=
  (after (step { scripted [.host ctrl default] with ee := [(0, flag)] })).map (·.mode)

theorem test_entry : enters 0xFF true = some .update ∧ enters 0xFF false = some .update ∧
    enters 0x00 false = some .update ∧ enters 0x00 true = some .app ∧ enters 0xFE true = some .app := by decide +kernel

/-- From reset the host's second step issues ACT.ARM (P3, trace 2). -/
theorem test_reset_runs_the_program :
    (after (step (hosting State.reset.prog 1 0 true))).map (fun t => (t.cmd, t.hpc)) =
      some (some 0x0300, .stmt 2 0) := by decide +kernel

/-- A boot that would transfer: the flag is programmed and the input not actuated, with `i` and `m` for what came before. -/
def booting (st : HostStmt) (m : Mode) (i : Bool) : Out :=
  step { hosting [st] 0 0 true with ee := [(0, 0x00)], mode := m, issued := i }

/-- U20: ENTRY and JMP.APP transfer straight after a reset and are refused after a command, or in update mode. -/
theorem test_jump_needs_a_reset :
    ∀ st ∈ [.entry, .jmpApp],
      (after (booting st .boot false)).map (fun t => (t.mode, t.hpc)) = some (.app, .app 0x0200) ∧
        refusal (booting st .boot true) = some .jumpWithoutReset ∧
        refusal (booting st .update false) = some .jumpWithoutReset := by decide +kernel

/-- R249 lets a host read at any time: past the transfer of control too (log entry 29). -/
theorem test_read_from_application :
    (after (step { scripted [.hostRead 0x00] with hpc := .app 0x0200 })).isSome = true ∧
      (after (step { scripted [.hostRead 0x80] with hpc := .app 0x0200 })).map (·.fault) = some .pbInvalid := by
  decide +kernel

/-- RS1. -/
theorem test_reset_state :
    (after (step { scripted [.reset delivered] with
      cursor := 0x0300, pbv := true, armed := true, act := true, rxq := [0x01], cmd := some 0x2000, fsm := .waitHeader })).map
        (fun t => (t.cursor, [t.pbv, t.armed, t.act], t.rxq, t.fsm, t.cmd)) =
      some (0x0200, [false, false, false], [], .idle, none) := by decide +kernel
/-- RS2: both outcomes of the byte in `TXH`. -/
theorem test_reset_txh :
    (deviceReset delivered { State.reset with txh := some 0x06 }).txlog = [0x06] ∧
      (deviceReset default { State.reset with txh := some 0x06 }).txlog = [] := by decide +kernel

/-- STATUS after reset: only TXE (R51, R55). -/
theorem test_reset_status : State.reset.status = 0x0001 := by decide +kernel

/-- A reserved register number is refused (R52, U2), as is `RES` before anything wrote it (R55, U6). -/
theorem test_reads_refused :
    refusal (step (scripted [.hostRead 0x0B])) = some (.reservedRegister 0x0B) ∧
      refusal (step (scripted [.hostRead 0x01])) = some (.unwrittenRegister 0x01) := by decide +kernel

/-- R250, U6: JEQ runs also where nothing wrote `RES`, whichever way its free value sends it. -/
theorem test_jeq_on_unwritten_res :
    (after (step (hosting [.jeqRes 0x0001 7] 0 0 true))).map (·.hpc) =
      some (.stmt (if Config.unwrittenRes = 0x0001 then 7 else 1) 0) := rfl

/-! ### The host's duties (R249) -/

/-- A command and its result. -/
def done (i : Instr) (res : Word) : List HostAct := [.issue i, .ended res]

/-- The reference host's session of one block that fails its first verify, up to its last command (P4's shape). -/
def session : List HostAct :=
  done .actArm 0 ++ done (.txSend 0x43) 0 ++ done .actProbe 1 ++ done .pktRecv 1 ++ done .nvmWrblk 0 ++
    done (.txSend NAK) 0 ++ done .pktRecv 1 ++ done .nvmWrblk 1 ++ done (.txSend ACK) 1 ++ done .pktRecv 2 ++
    done (.txSend ACK) 2 ++ done .nvmFlag 2

theorem test_duty_session : Duty.kept 0x43 .start (session ++ [.reset]) = true := by decide

/-- What the table leaves free: a PKT.RECV after the final 0x06, another byte in the loop, RX.RECV, a repeated
NVM.WRBLK (R208(c)), a read of PB while it is valid. -/
theorem test_duty_liberties :
    Duty.kept 0x43 .start (session ++ done .pktRecv 1) = true ∧
      Duty.kept 0x43 .start (done .pktRecv 1 ++ done (.txSend 0x55) 1 ++ done .rxRecv 7 ++ done .nvmWrblk 0 ++
        done .nvmWrblk 1 ++ [.read 0xFF] ++ done (.txSend ACK) 1) = true := by decide

/-- What it forbids: 0x06 with no accepted block, or twice for one, or before a verified write; a block left unwritten;
a probe outside the handshake; NVM.FLAG with no EOT; PB outside its window; issuing while a command runs. -/
theorem test_duty_breaches :
    ∀ acts ∈ [done (.txSend ACK) 0, done .pktRecv 1 ++ done (.txSend ACK) 1,
        done .pktRecv 1 ++ done .nvmWrblk 0 ++ done (.txSend ACK) 0,
        done .pktRecv 1 ++ done .nvmWrblk 1 ++ done (.txSend ACK) 1 ++ done (.txSend ACK) 1,
        done .pktRecv 1 ++ done .pktRecv 1, done .pktRecv 1 ++ done .actProbe 1, done .pktRecv 1 ++ done .nvmFlag 1,
        done .nvmWrblk 1, [.read 0x80], done .pktRecv 1 ++ [.issue .pktRecv, .read 0x80],
        [.issue .rxRecv, .issue .actArm]], Duty.kept 0x43 .start acts = false := by decide

/-- The host's probe words run as the first instruction after reset. -/
theorem test_withFetchWord_command :
    (after (step (State.reset.withFetchWord 16 0x0143))).map (fun t => (t.txh, t.cmd)) = some (some 0x43, none) := by
  decide +kernel
theorem test_withFetchWord_wire :
    (after (step (State.reset.withFetchWord 8 0x04))).map (fun t => (t.res, t.cmd)) = some (0x0002, none) := by
  decide +kernel

/-! ## Witnesses: the hypotheses of each obligation are met -/

/-- The page bytes the completion witnesses commit. -/
def onePage : List Byte := List.replicate 64 0x5A

/-- After one verified block, nothing in progress. -/
def between : State :=
  { State.reset with cursor := 0x0280, pbv := true, vfy := true, res := 1, resW := true, issued := true }

/-- In the middle of a packet. -/
def receiving : State := framing .readPayload [0x5A]

/-- NVM.WRBLK holding for the commit of its first page. -/
def committing : State :=
  { writing .commit with
    widx := 64, paddr := 0x0200, nvmBusy := true, pending := some (.flash 0x0200 onePage), pgbuf := onePage }

theorem test_witness_DecodeOfEncode :
    (Instr.txSend 0x00).WellFormed ∧ (Instr.txSend 0xFF).WellFormed ∧ (Instr.wireNoise 0x00).WellFormed ∧
      (Instr.wireNoise 0xFF).WellFormed ∧ Instr.nvmFlag.WellFormed := by decide

theorem test_witness_EncodeOfDecode : decodeCmd 0x01FF = .ok (.txSend 0xFF) ∧ decodeCmd 0x3100 = .ok .nvmFlag := by
  decide

theorem test_witness_StepRunsTheDecodedInstruction :
    (Scheduled .block [] (running .rxRecv) ∧ (running .rxRecv).cmd = some 0x0200 ∧ decodeCmd 0x0200 = .ok .rxRecv ∧
      Instr.rxRecv ≠ .pktRecv) ∧
    (Scheduled .block [] (framing .waitHeader []) ∧ decodeCmd 0x2000 = .ok .pktRecv ∧
      (framing .waitHeader []).cmd = some 0x2000 ∧ (framing .waitHeader []).rxq = []) ∧
    (Scheduled .block [] (framing .waitHeader [0x04]) ∧
      (framing .waitHeader [0x04]).cmd = some (tableWord .pktRecv) ∧
      (framing .waitHeader [0x04]).fsm = .waitHeader ∧ (framing .waitHeader [0x04]).rxq = 0x04 :: []) := by
  decide +kernel

theorem test_witness_IssueSetsTheCommand :
    Scheduled (.issue 0x2000) [] (scripted [.issue 0x2000]) ∧ (scripted [.issue 0x2000]).cmd = none ∧
      (scripted [.issue 0x2000]).hpc = .stmt 0 0 ∧ decodeCmd 0x2000 = .ok .pktRecv ∧
      Scheduled (.issue 0x0201) [] (scripted [.issue 0x0201]) ∧ (scripted [.issue 0x0201]).cmd = none ∧
      (scripted [.issue 0x0201]).hpc = .stmt 0 0 ∧ decodeCmd 0x0201 = .error (.nonzeroImm 0x02 0x01) := by
  decide +kernel

theorem test_witness_HostIsBlockedWhileBusy :
    Scheduled (.issue 0x2000) [] { running .rxRecv with script := [.issue 0x2000] } ∧
      Scheduled (.host true default) [] { running .rxRecv with script := [.host true default] } ∧
      (running .rxRecv).cmd ≠ none := by decide +kernel

theorem test_witness_BadConfigurationIsRefused :
    ¬ ({ Config.ex with pageSize := 0 } : Config).Admitted ∧ ¬ ({ Config.ex with pageSize := 48 } : Config).Admitted ∧
      ¬ ({ Config.ex with handshakePolls := 0 } : Config).Admitted := by decide +kernel

theorem test_witness_FaultIsFinal :
    ({ scripted [.hostRead 0x07] with fault := .pbInvalid } : State).fault ≠ .none ∧
      ∃ t, step { scripted [.hostRead 0x07] with fault := .pbInvalid } = .next t := ⟨by decide, _, rfl⟩

theorem test_witness_FaultsArePrecise :
    (running .crcCalc).fault = .none ∧ ∃ t, step (running .crcCalc) = .next t ∧ t.fault ≠ .none :=
  ⟨rfl, _, rfl, by decide⟩

theorem test_witness_TxSendWritesTxh :
    (running (.txSend 0x04)).txh = none ∧ ({ running (.txSend 0x04) with txh := some 0x06 } : State).txh = some 0x06 :=
  ⟨rfl, rfl⟩

theorem test_witness_RxRecvTakesTheFront :
    ({ running .rxRecv with rxq := [0xAB, 0x01] } : State).rxq = 0xAB :: [0x01] ∧ (running .rxRecv).rxq = [] :=
  ⟨rfl, rfl⟩

theorem test_witness_LineSteps :
    Scheduled .rxEdge [] { scripted [.rxEdge] with armed := true } ∧ Scheduled (.rxByte 0x01) [] (scripted [.rxByte 0x01]) ∧
      Scheduled .txDrain [] { scripted [.txDrain] with txh := some 0x43 } ∧
      Scheduled .txDrain [] (scripted [.txDrain]) ∧ (scripted [.txDrain]).txh = none := by decide +kernel

theorem test_witness_TransportFrame :
    (∃ t, exec (.txSend 0x06) (running (.txSend 0x06)) = .next t ∧ t.txh = some 0x06) ∧
      (∃ t, exec .rxRecv { running .rxRecv with rxq := [0x01] } = .next t ∧ t.res = 0x0001) ∧
      (∃ t, exec .actArm (running .actArm) = .next t ∧ t.armed = true) ∧
      (∃ t, exec .actProbe { running .actProbe with act := true } = .next t ∧ t.res = 0x0001) :=
  ⟨⟨_, rfl, rfl⟩, ⟨_, rfl, rfl⟩, ⟨_, rfl, rfl⟩, ⟨_, rfl, rfl⟩⟩

theorem test_witness_CrcCalcComputesOrFaults :
    ({ running .crcCalc with pbv := true } : State).pbv = true ∧ (running .crcCalc).pbv = false ∧
      (let s : State := { framing .validate [] with pb := payloadI, crcrx := 0xE80A, blk := 0x80, blkc := 0x7F }
       s.fsm = .validate ∧ crc16 s.pb = s.crcrx ∧ s.blk.toNat + s.blkc.toNat = 255) :=
  ⟨rfl, rfl, rfl, test_crc_I, by decide⟩

theorem test_witness_PktRecvOpensTheFramer : (framing .idle [0x01]).fsm = .idle := rfl

theorem test_witness_HeaderBytesInWaitHeader :
    (framing .waitHeader []).fsm = .waitHeader ∧ (framing .waitHeader []).rxq = [] ∧
      (framing .waitHeader [0x01, 0x04]).rxq = SOH :: [0x04] ∧
      (framing .waitHeader [0x04]).rxq = EOT :: [] ∧ (framing .waitHeader [0x00]).rxq = 0x00 :: [] ∧
      (Instr.wireNoise 0x00).WellFormed ∧ (framing .waitHeader [0xFF]).rxq = 0xFF :: [] ∧
      (Instr.wireNoise 0xFF).WellFormed := by decide

theorem test_witness_HeaderByteIsPktRecvsOwnStep :
    (framing .waitHeader [0x01]).rxq = 0x01 :: [] ∧ (framing .readCrcLo [0x04]).rxq = 0x04 :: [] ∧
      (framing .waitHeader [0x01]).fsm ∈
        [.waitHeader, .readBlk, .readBlkc, .readPayload, .readCrcHi, .readCrcLo] ∧
      (framing .readCrcLo [0x04]).fsm ∈
        [.waitHeader, .readBlk, .readBlkc, .readPayload, .readCrcHi, .readCrcLo] := by decide

theorem test_witness_ReadingStatesStoreTheByte :
    (framing .readBlk [0xFF]).rxq = 0xFF :: [] ∧ (framing .readBlk [0xFF]).fsm = .readBlk ∧
      (framing .readBlkc [0x00]).fsm = .readBlkc ∧
      ((framing .readPayload [0x5A]).fsm = .readPayload ∧ (framing .readPayload [0x5A]).idx = 0) ∧
      (({ framing .readPayload [0x5A] with idx := 127 } : State).fsm = .readPayload ∧ 127 < 128) ∧
      (framing .readCrcHi [0xE8]).fsm = .readCrcHi ∧ (framing .readCrcLo [0x0A]).fsm = .readCrcLo ∧
      ((framing .readCrcLo []).rxq = [] ∧
        (framing .readCrcLo []).fsm ∈ [.readBlk, .readBlkc, .readPayload, .readCrcHi, .readCrcLo]) := by decide

/-- The packet of `I` as VALIDATE finds it (S2), and with a checksum of zero. -/
theorem test_witness_ValidateAcceptsExactlyTheGoodPacket :
    let good : State := { framing .validate [] with pb := payloadI, crcrx := 0xE80A, blk := 0x00, blkc := 0xFF }
    good.fsm = .validate ∧ crc16 good.pb = good.crcrx ∧ good.blk.toNat + good.blkc.toNat = 255 ∧
      ¬ (crc16 ({ good with crcrx := 0x0000 } : State).pb = 0x0000 ∧ good.blk.toNat + good.blkc.toNat = 255) := by
  refine ⟨rfl, test_crc_I, by decide, fun h => ?_⟩
  have h : crc16 payloadI = 0x0000 := h.1
  rw [test_crc_I] at h
  exact absurd h (by decide)

theorem test_witness_RejectSendsOneNak :
    (framing .sendNak []).fsm = .sendNak ∧ (framing .sendNak []).txh = none ∧
      ({ framing .sendNak [] with txh := some 0x06 } : State).txh = some 0x06 := by decide

/-- FR16's shape with the block `I`: noise, the packet, and a byte that follows. -/
theorem test_witness_WellFormedPacketIsAccepted :
    let s : State :=
      { framing .idle ([0x55, 0x43] ++ packet 0x01 0xFE payloadI 0xE8 0x0A ++ [0x04]) with script := blocks 137 }
    s.cfg.Admitted ∧ FaultFree s ∧ s.cmd = some (tableWord .pktRecv) ∧ s.fsm = .idle ∧
      (∀ x ∈ ([0x55, 0x43] : List Byte), x ≠ SOH ∧ x ≠ EOT) ∧
      s.rxq = [0x55, 0x43] ++ packet 0x01 0xFE payloadI 0xE8 0x0A ++ [0x04] ∧ s.script = blocks (2 + 135) ++ [] ∧
      (0x01#8).toNat + (0xFE#8).toNat = 255 ∧ 0xE8#8 ++ 0x0A#8 = crc16 payloadI :=
  ⟨by decide, rfl, rfl, rfl, by decide, rfl, rfl, by decide, test_crc_I.symm⟩

/-- The packet of `I` with second block byte `c` and low checksum byte `l`. -/
def badPacket (c l : Byte) : State := { framing .idle (packet 0x01 c payloadI 0xE8 l) with script := blocks 136 }

/-- All but the last hypothesis, whatever the two bytes. -/
theorem badPacket_start (c l : Byte) :
    (badPacket c l).cfg.Admitted ∧ FaultFree (badPacket c l) ∧ (badPacket c l).cmd = some (tableWord .pktRecv) ∧
      (badPacket c l).fsm = .idle ∧ (badPacket c l).txh = none ∧ (∀ x ∈ ([] : List Byte), x ≠ SOH ∧ x ≠ EOT) ∧
      (badPacket c l).rxq = [] ++ packet 0x01 c payloadI 0xE8 l ++ [] ∧
      (badPacket c l).script = blocks (0 + 136) ++ [] :=
  ⟨(by decide : Config.ex.Admitted), rfl, rfl, rfl, rfl, fun _ h => absurd h List.not_mem_nil,
    (List.append_nil _).symm, (List.append_nil _).symm⟩

/-- FR13 (a checksum of 0xE80B) and FR3's pair (0x01, 0xFF), the rest by `badPacket_start`. -/
theorem test_witness_BadPacketIsRejected :
    ((0x01#8).toNat + (0xFE#8).toNat ≠ 255 ∨ 0xE8#8 ++ 0x0B#8 ≠ crc16 payloadI) ∧
      ((0x01#8).toNat + (0xFF#8).toNat ≠ 255 ∨ 0xE8#8 ++ 0x0A#8 ≠ crc16 payloadI) := by
  rw [test_crc_I]
  decide

/-- FR6. -/
theorem test_witness_EndOfTransmissionEndsTheCommand :
    let s : State := { framing .idle [0x43, 0x06, 0x15, 0x18, 0x04, 0x01] with script := blocks 6 }
    s.cfg.Admitted ∧ FaultFree s ∧ s.cmd = some (tableWord .pktRecv) ∧ s.fsm = .idle ∧
      (∀ x ∈ ([0x43, 0x06, 0x15, 0x18] : List Byte), x ≠ SOH ∧ x ≠ EOT) ∧
      s.rxq = [0x43, 0x06, 0x15, 0x18] ++ EOT :: [0x01] ∧ s.script = blocks (4 + 2) ++ [] := by decide +kernel

theorem test_witness_SingleBitCorruptionIsRejected :
    let s : State := { framing .validate [] with pb := payloadI, crcrx := 0xE80A, blk := 0x01, blkc := 0xFE }
    s.fsm = .validate ∧ crc16 s.pb = s.crcrx ∧ s.blk.toNat + s.blkc.toNat = 255 :=
  ⟨rfl, test_crc_I, by decide⟩

theorem test_witness_FramerFrame :
    (∃ t, exec .pktRecv (framing .readBlk [0x07]) = .next t ∧ t.blk = 0x07) ∧
      (Instr.wireEot.space = .wire ∧ ∃ t, exec .wireEot (framing .waitHeader [0x04]) = .next t ∧ t.res = 0x0002) :=
  ⟨⟨_, rfl, rfl⟩, rfl, ⟨_, rfl, rfl⟩⟩

theorem test_witness_WriteChecksThenStages :
    (running .nvmWrblk).wseq = .idle ∧ (running .nvmWrblk).pbv = false ∧
      (let s : State := { writing .idle with cursor := 0x8000 - 127 }
       s.wseq = .idle ∧ s.pbv = true ∧ s.cfg.flashSize < s.cursor + 128) ∧
      (let s : State := { writing .idle with cursor := 0x8000 - 128 }
       s.wseq = .idle ∧ s.pbv = true ∧ s.cursor + 128 ≤ s.cfg.flashSize) := by decide

theorem test_witness_StagingFillsThePageBuffer :
    (writing .stage).wseq = .stage ∧ (writing .stage).widx < 128 ∧
      ({ writing .stage with widx := 127, acc := 63 } : State).widx < 128 := by decide

theorem test_witness_CommitIssuesHoldsAndGoesOn :
    (let s : State := { writing .commit with acc := 64, widx := 64 }
     s.wseq = .commit ∧ s.nvmBusy = false ∧ s.acc ≠ 0) ∧
      (committing.wseq = .commit ∧ committing.nvmBusy = true) ∧
      (let s : State := { writing .commit with acc := 0, widx := 128 }
       s.wseq = .commit ∧ s.nvmBusy = false ∧ s.acc = 0) := by decide

/-- The verify in a flash that holds the block, whatever it held at power-up; and one with a wrong last byte. -/
theorem test_witness_VerifyDecidesTheResult :
    (let s : State := { writing .verify with pb := Vector.ofFn fun i => Config.powerUpFlash (0x0200 + i.val) }
     s.wseq = .verify ∧ s.cursor + 128 ≤ s.cfg.flashSize ∧ ∀ i : Fin 128, flashByte (s.cursor + i) s = s.pb[i]) ∧
      (let s : State := { writing .verify with flash := [(0x027F, 0xFA)] }
       s.wseq = .verify ∧ s.cursor + 128 ≤ s.cfg.flashSize ∧ ∃ i : Fin 128, flashByte (s.cursor + i) s ≠ s.pb[i]) := by
  refine ⟨⟨rfl, by decide, fun i => ?_⟩, rfl, by decide, ⟨127, by omega⟩, by decide +kernel⟩
  simp [writing, running, scripted, State.reset, State.powerUp, flashByte, Memory.read, Config.ex]

theorem test_witness_FlagWriteIssuesHoldsAndEnds :
    ((running .nvmFlag).wseq = .idle ∧ (running .nvmFlag).nvmBusy = false) ∧
      (let s : State := { running .nvmFlag with wseq := .flag, nvmBusy := true, pending := some (.ee 0 0) }
       s.wseq ∈ [.idle, .flag] ∧ s.nvmBusy = true) ∧
      (let s : State := { running .nvmFlag with wseq := .flag }
       s.wseq = .flag ∧ s.nvmBusy = false) := by decide

theorem test_witness_WriterFrame :
    (∃ t, exec .nvmFlag (running .nvmFlag) = .next t ∧ t.wseq = .flag) ∧
      (∃ t, exec .nvmWrblk (writing .stage) = .next t ∧ t.widx = 1) := ⟨⟨_, rfl, rfl⟩, ⟨_, rfl, rfl⟩⟩

theorem test_witness_CommandsLeaveTheMemories : ∃ t, exec .nvmWrblk committing = .next t := next_of (by decide +kernel)

theorem test_witness_CompletionWritesOnePage :
    let s : State := { committing with script := [.nvm [0xFA]] }
    Scheduled (.nvm [0xFA]) [] s ∧ s.nvmBusy = true ∧ s.pending = some (.flash 0x0200 onePage) ∧
      0x0200 + onePage.length ≤ s.cfg.flashSize := by decide +kernel

theorem test_witness_CompletionWritesTheFlagByte :
    let s : State := { scripted [.nvm []] with nvmBusy := true, pending := some (.ee 0xFF 0x00) }
    Scheduled (.nvm []) [] s ∧ s.nvmBusy = true ∧ s.pending = some (.ee 0xFF 0x00) ∧ 0xFF < s.cfg.eepromSize := by
  decide +kernel

/-- WR1's start, and the last block that fits. -/
theorem test_witness_NominalWriteBlock :
    ∀ c ∈ [0x0200, 0x8000 - 128],
      let s : State := { writing .idle with pb := payloadI, cursor := c, script := writeSchedule Config.ex }
      s.cfg.Admitted ∧ FaultFree s ∧ s.cmd = some (tableWord .nvmWrblk) ∧ s.wseq = .idle ∧ s.pbv = true ∧
        s.cursor + 128 ≤ s.cfg.flashSize ∧ s.cursor % s.cfg.pageSize = 0 ∧ s.acc = 0 ∧ s.nvmBusy = false ∧
        s.pending = none ∧ s.pgbuf.length = s.cfg.pageSize ∧ s.script = writeSchedule s.cfg ++ [] := by decide +kernel

theorem test_witness_NominalFlagWrite :
    let s : State := { running .nvmFlag with script := [.block, .nvm [], .block] }
    s.cfg.Admitted ∧ FaultFree s ∧ s.cmd = some (tableWord .nvmFlag) ∧ s.wseq = .idle ∧ s.nvmBusy = false ∧
      s.pending = none ∧ s.script = [.block, .nvm [], .block] ++ [] := by decide +kernel

/-- The boundaries of rules R8 to R11: the smallest and the largest page, and FLASH_SIZE at both its bounds. -/
theorem test_witness_InvariantAtPowerUp :
    Config.ex.Admitted ∧ ({ Config.ex with pageSize := 1, appStart := 0, flashSize := 128 } : Config).Admitted ∧
      ({ Config.ex with pageSize := 128, flashSize := 0x10000, flagAddr := 255 } : Config).Admitted := by decide

theorem between_inv : Inv between where
  admitted := by decide
  flashForm := by decide
  eeForm := by decide
  flashRegion := by decide
  eeRegion := by decide
  cmdLegal := fun w h => nomatch h
  issuedMark := fun _ => rfl
  busyBit := rfl
  pageLength := by decide
  cursorForm := ⟨⟨1, rfl⟩, by decide⟩
  counters := by decide
  framerForm := fun h => absurd rfl h
  payloadForm := fun h => nomatch h
  writerForm := ⟨rfl, fun h => nomatch h⟩
  commitForm := fun _ h => nomatch h
  handedOver := fun _ => rfl

theorem receiving_inv : Inv receiving where
  admitted := by decide
  flashForm := by decide
  eeForm := by decide
  flashRegion := by decide
  eeRegion := by decide
  cmdLegal := fun w h => ⟨.pktRecv, by cases h; rfl⟩
  issuedMark := fun _ => rfl
  busyBit := rfl
  pageLength := by decide
  cursorForm := ⟨⟨0, rfl⟩, by decide⟩
  counters := by decide
  framerForm := fun _ => ⟨rfl, rfl⟩
  payloadForm := fun _ => by decide
  writerForm := ⟨rfl, fun h => nomatch h⟩
  commitForm := fun _ h => nomatch h
  handedOver := fun h => absurd rfl (h 0 0)

theorem committing_inv : Inv committing where
  admitted := by decide
  flashForm := by decide
  eeForm := by decide
  flashRegion := by decide
  eeRegion := by decide
  cmdLegal := fun w h => ⟨.nvmWrblk, by cases h; rfl⟩
  issuedMark := fun _ => rfl
  busyBit := rfl
  pageLength := by decide
  cursorForm := ⟨⟨0, rfl⟩, by decide⟩
  counters := by decide
  framerForm := fun h => absurd rfl h
  payloadForm := fun h => nomatch h
  writerForm := ⟨rfl, rfl, by decide, by decide, by decide, rfl, rfl, .inl rfl⟩
  commitForm := fun c h => by cases h; exact ⟨rfl, rfl, rfl, by decide⟩
  handedOver := fun h => absurd rfl (h 0 0)

/-- A packet byte is read, a commit is held for: steps of two commands under the invariant. -/
theorem test_witness_EveryStepKeepsTheInvariant :
    (Inv receiving ∧ ∃ t, step receiving = .next t ∧ t.idx = 1) ∧ (Inv committing ∧ ∃ t, step committing = .next t) :=
  ⟨⟨receiving_inv, _, rfl, rfl⟩, committing_inv, next_of (by decide +kernel)⟩

theorem test_witness_BetweenCommands : Inv between ∧ between.cmd = none := ⟨between_inv, rfl⟩

/-- The stops of rules R263, R52 and R242 under the invariant. -/
theorem test_witness_NoStopButTheSpecsOwn :
    Inv { between with fault := .pbInvalid, script := [.block] } ∧
      step { between with fault := .pbInvalid, script := [.block] } = .fault (.stopped .pbInvalid) ∧
      Inv { between with script := [.hostRead 0x7F] } ∧
      step { between with script := [.hostRead 0x7F] } = .refused (.reservedRegister 0x7F) ∧
      Inv { between with script := [.issue 0x0200], hpc := .app 0x0200 } ∧
      step { between with script := [.issue 0x0200], hpc := .app 0x0200 } = .refused (.issuedFromApplication 0x0200) := by
  have h := between_inv
  exact ⟨{ h with }, rfl, { h with }, rfl, { h with
    writerForm := ⟨rfl, fun h => nomatch h⟩, commitForm := (fun _ h => nomatch h), handedOver := fun _ => rfl }, rfl⟩

theorem test_witness_EngineRegionIsNeverWritten :
    Inv committing ∧ (∃ t, step committing = .next t) ∧ 0 < committing.cfg.appStart ∧
      0x01FF < committing.cfg.appStart := ⟨committing_inv, next_of (by decide +kernel), by decide, by decide⟩

/-- A verify that matches, and a step that leaves the cursor alone. -/
theorem test_witness_CursorMovesOnlyOnAVerifiedBlock :
    (after (step { writing .verify with flash := Memory.writeBytes [] 0x0200 (List.replicate 128 0) })).map (·.cursor) =
      some 0x0280 ∧ (after (step committing)).map (·.cursor) = some 0x0200 := by decide +kernel

theorem test_witness_EveryStepKeepsMemoryCanonical :
    let s : State := { committing with script := [.nvm []], flash := [(0x0200, 0x11), (0x0300, 0x22)], ee := [(0, 0)] }
    s.flash.wf ∧ s.ee.wf ∧ ∃ t, step s = .next t := ⟨by decide, by decide, next_of (by decide +kernel)⟩

theorem test_witness_ConfigurationIsFixed : ∃ t, step receiving = .next t := next_of (by decide +kernel)

theorem test_witness_DeviceResetState :
    Scheduled (.reset delivered) [] { committing with script := [.reset delivered], txh := some 0x06 } ∧
      Scheduled (.reset default) [] { scripted [.reset default] with nvmBusy := false } := by decide +kernel

theorem test_witness_ResetCutsAtMostTheCommit :
    committing.pending = some (.flash 0x0200 onePage) ∧
      ({ running .nvmFlag with nvmBusy := true, pending := some (.ee 0 0x00) } : State).pending = some (.ee 0 0x00) :=
  ⟨rfl, rfl⟩

theorem test_witness_EntryDecisionChoosesThePath :
    (let s : State := { hosting [.entry] 0 0 true with ee := [(0, 0xFF)] }
     Scheduled (.host true default) [] s ∧ s.cmd = none ∧ s.hpc = .stmt 0 0 ∧ s.prog[0]? = some .entry ∧
       eeByte s.cfg.flagAddr s = 0xFF) ∧
    (let s : State := { hosting [.entry] 0 0 false with ee := [(0, 0x00)] }
     Scheduled (.host false default) [] s ∧ s.prog[0]? = some .entry ∧ false = s.cfg.ctrlActive) ∧
    (let s : State := { hosting [.entry] 0 0 true with ee := [(0, 0xFE)] }
     Scheduled (.host true default) [] s ∧ s.prog[0]? = some .entry ∧ eeByte s.cfg.flagAddr s ≠ 0xFF ∧
       true ≠ s.cfg.ctrlActive ∧ s.mode = .boot ∧ s.issued = false ∧ ¬ (({ s with issued := true } : State).mode = .boot ∧
       ({ s with issued := true } : State).issued = false) ∧ ({ s with mode := .update } : State).mode ≠ .boot) := by
  decide +kernel

/-- EN6 with two boots, the second cutting nothing. -/
theorem test_witness_EntryDecisionIsIdempotent :
    let ds : List (ResetDraw × ResetDraw) := [(delivered, default), (default, default)]
    let s : State :=
      { scripted (ds.flatMap fun p => [.reset p.1, .host (!Config.ex.ctrlActive) p.2]) with ee := [(0, 0x00)] }
    s.cfg.Admitted ∧ FaultFree s ∧ s.prog = referenceProgram s.cfg ∧ s.nvmBusy = false ∧
      eeByte s.cfg.flagAddr s ≠ 0xFF ∧
      s.script = (((delivered, default) :: [(default, default)]).flatMap fun p =>
        [.reset p.1, .host (!s.cfg.ctrlActive) p.2]) ++ [] := by decide +kernel

/-- The host at statement 0 of the one-statement program `st`, after `k` probes, with `RES = v`. -/
def atStatement (st : HostStmt) (k : Nat) (v : Word) : State :=
  { hosting [st] 0 k true with res := v, resW := true }

theorem atStatement_start (st : HostStmt) (k : Nat) (v : Word) :
    Scheduled (.host true default) [] (atStatement st k v) ∧ (atStatement st k v).cmd = none ∧
      (atStatement st k v).hpc = .stmt 0 k ∧ (atStatement st k v).prog[0]? = some st :=
  ⟨⟨(by decide : Config.ex.Admitted), rfl, rfl⟩, rfl, rfl, rfl⟩

/-- Every statement meets the common hypotheses by `atStatement_start`; these are the clauses' own. -/
theorem test_witness_HostStatements :
    decodeCmd 0x0300 = .ok .actArm ∧ decodeCmd 0x0000 = .error (.unknownOp 0x00) ∧
      ((atStatement .jmpApp 0 1).mode = .boot ∧ (atStatement .jmpApp 0 1).issued = false) ∧
      ({ atStatement .jmpApp 0 1 with issued := true } : State).issued ≠ false ∧
      ({ atStatement (.jeqRes 1 3) 0 1 with resW := false } : State).resW = false ∧ (atStatement (.jeqRes 1 3) 0 1).resW = true ∧ (1 ≠ 0 ∧ (atStatement (.poll 3 5) 1 1).res = 1) ∧
      ((atStatement (.poll 3 5) 0 1).hpc = .stmt 0 0 ∧ 0 < 3) ∧ ((atStatement (.poll 3 5) 2 0).res ≠ 1 ∧ 2 < 3) ∧
      ((atStatement (.poll 3 5) 3 0).res ≠ 1 ∧ 3 ≤ 3) :=
  ⟨by decide, by decide, ⟨rfl, rfl⟩, by decide, rfl, rfl, ⟨by decide, rfl⟩, ⟨rfl, by decide⟩, ⟨by decide, by decide⟩,
    by decide, by decide⟩

/-- The reference host after NVM.WRBLK gave `v`. -/
def acknowledging (v : Word) : State :=
  { scripted [.host true default, .host true default] with hpc := .stmt 10 0, res := v, resW := true }

theorem test_witness_AcknowledgeAfterProgramming :
    ((acknowledging 0).cfg.Admitted ∧ FaultFree (acknowledging 0) ∧ (acknowledging 0).cmd = none ∧
      (acknowledging 0).prog = referenceProgram (acknowledging 0).cfg ∧ (acknowledging 0).hpc = .stmt 10 0 ∧
      (acknowledging 0).resW = true ∧ (acknowledging 0).script = [.host true default, .host true default] ++ []) ∧
    ((acknowledging 1).cfg.Admitted ∧ FaultFree (acknowledging 1) ∧ (acknowledging 1).cmd = none ∧
      (acknowledging 1).prog = referenceProgram (acknowledging 1).cfg ∧ (acknowledging 1).hpc = .stmt 10 0 ∧
      (acknowledging 1).resW = true ∧ (acknowledging 1).script = [.host true default, .host true default] ++ []) := by
  decide +kernel

theorem test_witness_AppRequestErasesTheFlag :
    let s : State := { scripted [.app default, .nvm [], .app default] with hpc := .app 0x0200 }
    s.cfg.Admitted ∧ FaultFree s ∧ s.hpc = .app 0x0200 ∧ s.nvmBusy = false ∧
      s.script = [.app default, .nvm [], .app default] ++ [] := by decide +kernel

theorem test_witness_HostReads :
    Scheduled (.hostRead 0x80) [] (scripted [.hostRead 0x80]) ∧
      readRegister 0xFF { scripted [.hostRead 0xFF] with pbv := true } = .value 0 ∧
      readRegister 0x80 (scripted [.hostRead 0x80]) = .pbInvalid ∧
      readRegister 0x0B (scripted []) = .reserved ∧ readRegister 0x100 (scripted []) = .reserved ∧
      readRegister 0x01 (scripted []) = .unwritten := by decide +kernel

/-- The transfer at boot, and a step under the invariant before any command is issued. -/
theorem test_witness_WrittenCodeRunsOnlyAfterAReset :
    let s : State := { hosting [.jmpApp] 0 0 true with ee := [(0, 0x00)] }
    (∃ t, step s = .next t ∧ t.hpc = .app 0x0200) ∧ s.hpc = .stmt 0 0 ∧
      (∃ t, step { s with prog := [.ledOn] } = .next t ∧ t.mode = .boot ∧ t.issued = false) ∧
      Inv { between with issued := false } ∧ between.hpc = .stmt 0 0 ∧
      ∃ t, step { between with issued := false, script := [.rxEdge] } = .next t :=
  ⟨⟨_, rfl, rfl⟩, rfl, ⟨_, rfl, rfl, rfl⟩, { between_inv with issuedMark := fun h => absurd rfl h }, rfl, _, rfl⟩

end Sys2Proof.Tests
end

section
/-! SUPPORT. The proofs of the scope statements (00_scope.md). -/

namespace Sys2Proof.Proofs.Scope
open Sys2Proof.Machine

/-- Settles O8: the test of R16 is the first thing a step does, before the fault and the event are looked at. -/
theorem badConfigurationIsRefused : Obligations.BadConfigurationIsRefused := by
  intro s hbad
  unfold step
  exact if_neg hbad

end Sys2Proof.Proofs.Scope
end

section
/-! SUPPORT. The step of BLOCK, the step after a fault, the register view and its bits. -/

namespace Sys2Proof.Proofs.Registers
open Sys2Proof.Machine
open Sys2Proof.Safety

/-! ### The instruction BLOCK fetches -/

theorem blockStep_decoded {s : State} {w : Word} {i : Instr} (hc : s.cmd = some w) (hd : decodeCmd w = .ok i) :
    blockStep s = exec (headerOr i s) s := by
  simp [blockStep, fetch, hc, hd]

theorem headerOr_front {s : State} {b : Byte} {q : List Byte} (hf : s.fsm = .waitHeader) (hq : s.rxq = b :: q) :
    headerOr .pktRecv s = decodeWire b := by
  simp [headerOr, hf, hq]

theorem headerOr_self {s : State} {i : Instr} (h : i = .pktRecv → s.fsm = .waitHeader → s.rxq = []) :
    headerOr i s = i := by
  unfold headerOr
  split
  · rename_i hp
    rw [h hp.1 hp.2]
  · rfl

/-- Settles O5: BLOCK's step is the instruction `headerOr` makes of the decoded one, and that is another only for
PKT.RECV in WAIT_HEADER with a byte at the front. -/
theorem stepRunsTheDecodedInstruction : Obligations.StepRunsTheDecodedInstruction := by
  have run {s : State} {rest : List Event} {w : Word} {i j : Instr} (hs : Scheduled .block rest s)
      (hc : s.cmd = some w) (hd : decodeCmd w = .ok i) (hj : headerOr i { s with script := rest } = j) :
      step s = exec j { s with script := rest } :=
    (step_scheduled hs).trans (hj ▸ blockStep_decoded hc hd)
  constructor
  · intro s rest w i hs hc hd hh
    exact run hs hc hd (headerOr_self hh)
  · intro s rest b q hs hc hf hq
    exact run hs hc (i := .pktRecv) rfl (headerOr_front hf hq)

/-- Settles O7: both of HOST's steps test `BUSY` first. -/
theorem hostIsBlockedWhileBusy : Obligations.HostIsBlockedWhileBusy := by
  intro s rest e hs hc he
  have hb : State.busy { s with script := rest } = true := busy_eq_true.mpr hc
  rw [step_scheduled hs]
  obtain ⟨c, r, rfl⟩ | ⟨w, rfl⟩ := he
  · exact if_pos hb
  · exact if_pos hb

/-! ### STATUS and the register view -/

theorem statusBit_getLsbD (b : Bool) {i : Nat} (j : Nat) (hi : i < 16) :
    (statusBit b i).getLsbD j = (b && decide (j = i)) := by
  rcases Nat.lt_trichotomy j i with h | rfl | h
  · simp [statusBit, h, Nat.ne_of_lt h]
  · simp [statusBit, hi]
  · have h0 : j - i ≠ 0 := by omega
    simp [statusBit, BitVec.getLsbD_ofBool, h0, Nat.ne_of_gt h]

theorem status_getLsbD (s : State) (j : Nat) : s.status.getLsbD j =
    (s.txe && decide (j = 0) || s.rxc && decide (j = 1) || s.act && decide (j = 2) || s.armed && decide (j = 3) ||
      s.pbv && decide (j = 4) || s.vfy && decide (j = 5) || s.nvmBusy && decide (j = 6) ||
      s.busy && decide (j = 7) || s.faulted && decide (j = 8)) := by
  simp [State.status, statusBit_getLsbD]

/-- Settles O58: each of the nine bits stands in a place of its own, and there is no tenth. -/
theorem statusBits : Obligations.StatusBits := by
  intro s
  refine ⟨?_, ?_, ?_, ?_, ?_, ?_, ?_, ?_, ?_, fun i hi => ?high⟩
  case high =>
    have : i ≠ 0 ∧ i ≠ 1 ∧ i ≠ 2 ∧ i ≠ 3 ∧ i ≠ 4 ∧ i ≠ 5 ∧ i ≠ 6 ∧ i ≠ 7 ∧ i ≠ 8 := by omega
    simp [status_getLsbD, this]
  all_goals
    rw [status_getLsbD]
    simp [State.txe, State.rxc, State.busy, State.faulted]

@[simp] theorem status_takeEvent (s : State) : (takeEvent s).status = s.status := by
  simp [State.status, State.txe, State.rxc, State.busy, State.faulted]

/-- The view does not show the model's script. -/
@[simp] theorem readRegister_takeEvent (n : Nat) (s : State) : readRegister n (takeEvent s) = readRegister n s := by
  simp [readRegister]

theorem readRegister_reserved {n : Nat} (s : State) (h : 0x0B ≤ n ∧ n ≤ 0x7F ∨ 0xFF < n) :
    readRegister n s = .reserved := by
  unfold readRegister
  rcases h with ⟨hlo, hhi⟩ | h
  · rw [if_neg (by omega)]
    split
    case h_12 => rfl
    all_goals omega
  · rw [if_pos (by omega), Vector.getElem?_eq_none (by omega)]

theorem readRegister_pb (i : Fin 128) (s : State) :
    readRegister (0x80 + i) s = if s.pbv then .value s.pb[i].toNat else .pbInvalid := by
  simp [readRegister]

/-- Settles O59: the table of the view clause by clause, and the four things a read of it does. -/
theorem hostReads : Obligations.HostReads := by
  intro s n
  refine ⟨?_, ?_, ?_, ?_, ?_, ?_, ?_, ?_, ?_, ?_, ?_, readRegister_reserved s, ?pb, fun rest hs => ?read⟩
  case pb => rintro i rfl; exact readRegister_pb i s
  case read =>
    have view := readRegister_takeEvent n s
    rw [takeEvent_of_script hs.2.2] at view
    rw [step_scheduled hs, agentStep, hostReadStep, readView, view]
    exact ⟨fun v hr => by rw [hr], fun hr => by rw [hr]; rfl, fun hr => by rw [hr], fun hr => by rw [hr]⟩
  all_goals
    rintro rfl
    rfl

/-- Settles O9: after a fault a step is a read that answers, and it reads the register as it was. -/
theorem faultIsFinal : Obligations.FaultIsFinal := by
  intro s t hf h
  obtain ⟨_, ⟨_, h⟩ | ⟨hn, _⟩⟩ := step_eq_next h
  · obtain ⟨⟨n, v, he, hv⟩, rfl⟩ := afterFault_eq_next h
    exact ⟨⟨n, v, he, (readRegister_takeEvent n s).symm.trans hv⟩, rfl, takeEvent_fault s⟩
  · exact absurd hn hf

end Sys2Proof.Proofs.Registers
end

section
/-! SUPPORT. Facts about the invariant and the commands in progress that the proofs of its preservation and of the
model's stops share. -/

namespace Sys2Proof.Proofs.Invariants
open Sys2Proof.Machine
open Sys2Proof.Safety

/-! ### Command words -/

theorem opOf_append_immOf (w : Word) : opOf w ++ immOf w = w := by
  unfold opOf immOf
  rw [BitVec.extractLsb'_append_extractLsb'_eq_extractLsb' (by rfl)]
  exact BitVec.extractLsb'_eq_self

/-- The mask of TX.SEND's row tests the OP alone. -/
theorem opOf_of_mask {w p : Word} (h : w &&& 0xFF00#16 = p) : opOf w = opOf p := by
  have hop := congrArg opOf h
  rw [opOf, BitVec.extractLsb'_and] at hop
  rw [← hop]
  exact BitVec.and_allOnes.symm

/-- A word that decodes has hit a row of the opcode map, and decodes to what the row builds (R101). -/
theorem row_of_decodeCmd {w : Word} {i : Instr} (h : decodeCmd w = .ok i) :
    ∃ r ∈ cmdTable, w &&& r.mask = r.pattern ∧ r.build (immOf w) = i := by
  unfold decodeCmd at h
  split at h
  · rename_i r hf
    cases h
    exact ⟨r, List.mem_of_find?_eq_some hf, by simpa [CmdRow.hits] using List.find?_some hf, rfl⟩
  · split at h <;> cases h

/-- It is the word of the command it decodes to (R101, R103). -/
theorem tableWord_of_decodeCmd {w : Word} {i : Instr} (h : decodeCmd w = .ok i) : tableWord i = w := by
  obtain ⟨r, hr, hit, rfl⟩ := row_of_decodeCmd h
  have whole {p : Word} (hp : w &&& 0xFFFF#16 = p) : p = w := hp.symm.trans BitVec.and_allOnes
  simp only [cmdTable, List.mem_cons, List.not_mem_nil, or_false] at hr
  rcases hr with rfl | rfl | rfl | rfl | rfl | rfl | rfl | rfl
  · have hop : opOf w = 0x01#8 := opOf_of_mask hit
    show 0x01#8 ++ immOf w = w
    rw [← hop, opOf_append_immOf]
  all_goals exact whole hit

/-- It decodes to a command, never to a header byte. -/
theorem space_of_decodeCmd {w : Word} {i : Instr} (h : decodeCmd w = .ok i) : i.space = .command := by
  obtain ⟨r, hr, _, rfl⟩ := row_of_decodeCmd h
  simp only [cmdTable, List.mem_cons, List.not_mem_nil, or_false] at hr
  rcases hr with rfl | rfl | rfl | rfl | rfl | rfl | rfl | rfl <;> rfl

/-- What PKT.RECV's header byte is fetched as is a wire instruction; any other fetch is the command itself. -/
theorem headerOr_cases (i : Instr) (s : State) :
    headerOr i s = i ∨ (i = .pktRecv ∧ (headerOr i s).space = .wire) := by
  unfold headerOr
  split
  · split
    · exact .inl rfl
    · rename_i hp _ b _ _
      refine .inr ⟨hp.1, ?_⟩
      unfold decodeWire
      split
      · rfl
      · split <;> rfl
  · exact .inl rfl

/-- The transport's commands are no other unit's. -/
theorem transportNext_command {i : Instr} {s t : State} (h : TransportNext s i t) :
    i.space = .command ∧ i ≠ .pktRecv ∧ i ≠ .nvmWrblk ∧ i ≠ .nvmFlag := by
  cases h <;> exact ⟨rfl, by nofun, by nofun, by nofun⟩

/-- The next states of a step of BLOCK with a legal word in `CMD`, by the unit whose command it is. -/
inductive BlockNext (s t : State) : Prop where
  | transport (i : Instr) (hd : decodeCmd (tableWord i) = .ok i) (hc : s.cmd = some (tableWord i))
      (h : TransportNext s i t)
  | crc (hc : s.cmd = some (tableWord .crcCalc)) (h : CrcNext s t)
  | framer (hc : s.cmd = some (tableWord .pktRecv)) (h : FramerNext s t)
  | write (hc : s.cmd = some (tableWord .nvmWrblk)) (h : WriteNext s t)
  | flag (hc : s.cmd = some (tableWord .nvmFlag)) (h : FlagNext s t)

theorem exec_blockNext {s t : State} {w : Word} {i : Instr} (hc : s.cmd = some w) (hd : decodeCmd w = .ok i)
    (h : exec (headerOr i s) s = .next t) : BlockNext s t := by
  have hspace := space_of_decodeCmd hd
  obtain rfl := tableWord_of_decodeCmd hd
  obtain hi | ⟨rfl, hi⟩ := headerOr_cases i s
  · rw [hi] at h
    obtain ht | ⟨rfl, ht⟩ | ⟨rfl | hw, ht⟩ | ⟨rfl, ht⟩ | ⟨rfl, ht⟩ := exec_next h
    · exact .transport i hd hc ht
    · exact .crc hc ht
    · exact .framer hc ht
    · cases hspace.symm.trans hw
    · exact .write hc ht
    · exact .flag hc ht
  · obtain ht | ⟨he, _⟩ | ⟨_, ht⟩ | ⟨he, _⟩ | ⟨he, _⟩ := exec_next h
    · cases hi.symm.trans (transportNext_command ht).1
    · cases hi.symm.trans (congrArg Instr.space he)
    · exact .framer hc ht
    · cases hi.symm.trans (congrArg Instr.space he)
    · cases hi.symm.trans (congrArg Instr.space he)

/-! ### What each step keeps of the configuration and of `CURSOR` -/

/-- The step keeps the configuration and the host's program (R30, R57). -/
def KeepsConfig (s t : State) : Prop := t.cfg = s.cfg ∧ t.prog = s.prog

theorem transportNext_keeps {i : Instr} {s t : State} (h : TransportNext s i t) :
    KeepsConfig s t ∧ t.cursor = s.cursor := by
  cases h <;> exact ⟨⟨rfl, rfl⟩, rfl⟩

theorem crcNext_keeps {s t : State} (h : CrcNext s t) : KeepsConfig s t ∧ t.cursor = s.cursor := by
  cases h <;> exact ⟨⟨rfl, rfl⟩, rfl⟩

theorem packetNext_keeps {b : Byte} {s t : State} (h : PacketNext s b t) :
    KeepsConfig s t ∧ t.cursor = s.cursor := by
  cases h <;> exact ⟨⟨rfl, rfl⟩, rfl⟩

theorem framerNext_keeps {s t : State} (h : FramerNext s t) : KeepsConfig s t ∧ t.cursor = s.cursor := by
  cases h with
  | data b q _ hq h => exact (packetNext_keeps h :)
  | _ => exact ⟨⟨rfl, rfl⟩, rfl⟩

theorem flagNext_keeps {s t : State} (h : FlagNext s t) : KeepsConfig s t ∧ t.cursor = s.cursor := by
  cases h <;> exact ⟨⟨rfl, rfl⟩, rfl⟩

theorem writeNext_keepsConfig {s t : State} (h : WriteNext s t) : KeepsConfig s t := by
  cases h <;> exact ⟨rfl, rfl⟩

/-- Only the verify that matched moves `CURSOR` (R205). -/
theorem writeNext_cursor {s t : State} (h : WriteNext s t) :
    t.cursor = s.cursor ∨
    (s.wseq = .verify ∧ verifyOk s = true ∧ t.cursor = s.cursor + 128 ∧ t.vfy = true ∧ t.res = 1) := by
  cases h with
  | verified hw _ hv => exact .inr ⟨hw, hv, rfl, rfl, rfl⟩
  | _ => exact .inl rfl

theorem hostNext_keepsConfig {s t : State} (h : HostNext s t) : KeepsConfig s t := by
  cases h <;> exact ⟨rfl, rfl⟩

theorem hostNext_cursor {s t : State} (h : HostNext s t) :
    t.cursor = s.cursor ∨ ∃ r, t = deviceReset r s := by
  cases h with
  | reset r => exact .inr ⟨r, rfl⟩
  | _ => exact .inl rfl

theorem outsideNext_keepsConfig {s t : State} (h : OutsideNext s t) : KeepsConfig s t := by
  cases h <;> exact ⟨rfl, rfl⟩

theorem outsideNext_cursor {s t : State} (h : OutsideNext s t) :
    t.cursor = s.cursor ∨ ∃ r, t = deviceReset r s := by
  cases h with
  | reset r => exact .inr ⟨r, rfl⟩
  | _ => exact .inl rfl

theorem blockNext_keepsConfig {s t : State} (h : BlockNext s t) : KeepsConfig s t := by
  cases h with
  | transport i _ _ h => exact (transportNext_keeps h).1
  | crc _ h => exact (crcNext_keeps h).1
  | framer _ h => exact (framerNext_keeps h).1
  | write _ h => exact writeNext_keepsConfig h
  | flag _ h => exact (flagNext_keeps h).1

theorem blockNext_cursor {s t : State} (h : BlockNext s t) :
    t.cursor = s.cursor ∨
    (s.cmd = some (tableWord .nvmWrblk) ∧ s.wseq = .verify ∧ verifyOk s = true ∧
      t.cursor = s.cursor + 128 ∧ t.vfy = true ∧ t.res = 1) := by
  cases h with
  | transport i _ _ h => exact .inl (transportNext_keeps h).2
  | crc _ h => exact .inl (crcNext_keeps h).2
  | framer _ h => exact .inl (framerNext_keeps h).2
  | write hc h => exact (writeNext_cursor h).imp_right fun hv => ⟨hc, hv⟩
  | flag _ h => exact .inl (flagNext_keeps h).2

@[simp] theorem verifyOk_takeEvent (s : State) : verifyOk (takeEvent s) = verifyOk s := by
  simp [verifyOk, stageAddr]

/-- Settles O49: `step_next` names every next state, and none of them has another configuration or program. -/
theorem configurationIsFixed : Obligations.ConfigurationIsFixed := by
  intro s t h
  suffices KeepsConfig (takeEvent s) t by simpa [KeepsConfig] using this
  obtain rfl | ⟨_, w, i, hc, hd, h⟩ | ⟨_, w, e, _, _, rfl⟩ | ⟨_, _, _, h⟩ | ⟨_, h⟩ := step_next h
  · exact ⟨rfl, rfl⟩
  · exact blockNext_keepsConfig (exec_blockNext (by simpa using hc) hd h)
  · exact ⟨rfl, rfl⟩
  · exact hostNext_keepsConfig h
  · exact outsideNext_keepsConfig h

/-- Settles O47: of BLOCK's steps only NVM.WRBLK's matched verify moves `CURSOR`, of the other agents' only a reset. -/
theorem cursorMovesOnlyOnAVerifiedBlock : Obligations.CursorMovesOnlyOnAVerifiedBlock := by
  intro s t h
  have reset (hr : t.cursor = (takeEvent s).cursor ∨ ∃ r, t = deviceReset r (takeEvent s)) :
      t.cursor = s.cursor ∨ ∃ r, t = deviceReset r (takeEvent s) ∧ t.cursor = s.cfg.appStart := by
    rcases hr with hr | ⟨r, rfl⟩
    · exact .inl (hr.trans (takeEvent_cursor s))
    · exact .inr ⟨r, rfl, by simp⟩
  obtain rfl | ⟨_, w, i, hc, hd, h⟩ | ⟨_, w, e, _, _, rfl⟩ | ⟨_, _, _, h⟩ | ⟨_, h⟩ := step_next h
  · exact .inl (takeEvent_cursor s)
  · rcases blockNext_cursor (exec_blockNext (by simpa using hc) hd h) with h | h
    · exact .inl (h.trans (takeEvent_cursor s))
    · exact .inr (.inr (by simpa using h))
  · exact .inl (takeEvent_cursor s)
  · exact (reset (hostNext_cursor h)).imp_right .inl
  · exact (reset (outsideNext_cursor h)).imp_right .inl

end Sys2Proof.Proofs.Invariants
end

section
/-! SUPPORT. The invariant: what it says of the registers, that it holds at power-up, and that every step of every
agent keeps it. -/

namespace Sys2Proof.Proofs.Invariants
open Sys2Proof.Machine
open Sys2Proof.Safety

/-! ### What the invariant says of the registers -/

theorem writerForm_idle {s : State} (hw : s.wseq = .idle) :
    WriterForm s ↔ s.acc = 0 ∧ (s.nvmBusy = true → s.hpc = .appReset) := by simp [WriterForm, hw]

theorem writerForm_of_idle {s : State} (hw : s.wseq = .idle) (ha : s.acc = 0)
    (hb : s.nvmBusy = true → s.hpc = .appReset) : WriterForm s := (writerForm_idle hw).mpr ⟨ha, hb⟩

theorem writerForm_stage {s : State} (hw : s.wseq = .stage) :
    WriterForm s ↔ s.cmd = some (tableWord .nvmWrblk) ∧ s.pbv = true ∧ cursorFits s ∧ s.widx < 128 ∧
      s.acc = s.widx % s.cfg.pageSize ∧ s.nvmBusy = false := by simp [WriterForm, hw]

theorem writerForm_commit {s : State} (hw : s.wseq = .commit) :
    WriterForm s ↔ s.cmd = some (tableWord .nvmWrblk) ∧ s.pbv = true ∧ cursorFits s ∧ 0 < s.widx ∧ s.widx ≤ 128 ∧
      s.widx % s.cfg.pageSize = 0 ∧ s.paddr + s.cfg.pageSize = s.cursor + s.widx ∧
      (s.acc = 0 ∨ s.acc = s.cfg.pageSize ∧ s.nvmBusy = false) := by simp [WriterForm, hw]

theorem writerForm_verify {s : State} (hw : s.wseq = .verify) :
    WriterForm s ↔ s.cmd = some (tableWord .nvmWrblk) ∧ s.pbv = true ∧ cursorFits s ∧ s.widx = 128 ∧ s.acc = 0 ∧
      s.nvmBusy = false := by simp [WriterForm, hw]

theorem writerForm_flag {s : State} (hw : s.wseq = .flag) :
    WriterForm s ↔ s.cmd = some (tableWord .nvmFlag) ∧ s.acc = 0 := by simp [WriterForm, hw]

/-- Distinct commands have distinct words. -/
theorem tableWord_ne {i j : Instr} (hi : decodeCmd (tableWord i) = .ok i) (hj : decodeCmd (tableWord j) = .ok j)
    (hne : i ≠ j) : some (tableWord i) ≠ some (tableWord j) := by
  intro h
  rw [Option.some.inj h, hj] at hi
  cases hi
  exact hne rfl

section
variable {s : State} (h : Inv s)
include h

/-- The framer is idle outside PKT.RECV (R165). -/
theorem fsm_idle (hc : s.cmd ≠ some (tableWord .pktRecv)) : s.fsm = .idle := by
  by_contra hf
  exact hc (h.framerForm hf).1

theorem pbv_framing {f : Fsm} (hf : s.fsm = f) (hne : f ≠ .idle) : s.pbv = false := (h.framerForm (hf ▸ hne)).2

/-- The writer is idle outside its two commands. -/
theorem wseq_idle (hw : s.cmd ≠ some (tableWord .nvmWrblk)) (hf : s.cmd ≠ some (tableWord .nvmFlag)) :
    s.wseq = .idle := by
  have hform := h.writerForm
  cases hq : s.wseq with
  | idle => rfl
  | stage => exact absurd ((writerForm_stage hq).mp hform).1 hw
  | commit => exact absurd ((writerForm_commit hq).mp hform).1 hw
  | verify => exact absurd ((writerForm_verify hq).mp hform).1 hw
  | flag => exact absurd ((writerForm_flag hq).mp hform).1 hf

theorem pending_none (hb : s.nvmBusy = false) : s.pending = none := by simpa [hb] using h.busyBit

theorem not_handedOver (hc : s.cmd ≠ none) : ¬ HandedOver s := fun hh => hc (h.handedOver hh)

/-- With an idle writer `ACC` is 0, and no commit is pending but the application's own (R246). -/
theorem idle_quiet (hq : s.wseq = .idle) (hh : ¬ HandedOver s) : s.acc = 0 ∧ s.nvmBusy = false := by
  obtain ⟨ha, hb⟩ := (writerForm_idle hq).mp h.writerForm
  refine ⟨ha, Bool.eq_false_iff.mpr fun hbusy => hh fun n k => ?_⟩
  rw [hb hbusy]
  nofun

theorem pageSize_pos : 0 < s.cfg.pageSize := h.admitted.1.1

/-- Every block boundary is a page boundary: `PAGE_SIZE` divides 128 and APP_START (R8, R9, R56(b)). -/
theorem cursor_aligned : s.cursor % s.cfg.pageSize = 0 := by
  obtain ⟨⟨_, h128⟩, ⟨hstart, _⟩, _⟩ := h.admitted
  obtain ⟨⟨k, hk⟩, _⟩ := h.cursorForm
  rw [hk]
  exact Nat.mod_eq_zero_of_dvd (Nat.dvd_add (Nat.dvd_of_mod_eq_zero hstart)
    (Dvd.dvd.mul_right (Nat.dvd_of_mod_eq_zero h128) k))

/-- A pending page is the one before the staging position, inside the application region (R71, R72, R201). -/
theorem pending_page_region {page : Nat} {data : List Byte} (hp : s.pending = some (.flash page data)) :
    s.wseq = .commit ∧ s.cfg.appStart ≤ page ∧ page + data.length ≤ s.cfg.flashSize := by
  obtain ⟨hq, _, rfl, hlen⟩ := h.commitForm _ hp
  obtain ⟨_, _, hfits, hpos, hle, hmod, haddr, _⟩ := (writerForm_commit hq).mp h.writerForm
  obtain ⟨⟨k, hk⟩, _⟩ := h.cursorForm
  have hpage : s.cfg.pageSize ≤ s.widx := Nat.le_of_dvd hpos (Nat.dvd_of_mod_eq_zero hmod)
  simp only [cursorFits, blockLen] at hfits
  exact ⟨hq, by omega, by omega⟩

/-- A pending flag write is at the Persisted Flag, which exists (R11, R75). -/
theorem pending_flag_region {addr : Nat} {v : Byte} (hp : s.pending = some (.ee addr v)) :
    addr = s.cfg.flagAddr ∧ addr < s.cfg.eepromSize := by
  obtain ⟨rfl, _⟩ := h.commitForm _ hp
  exact ⟨rfl, h.admitted.2.2.2.1⟩

/-- Bytes of the pending page, in any number, keep FLASH's form and region. -/
theorem flash_writeBytes {page : Nat} {data bs : List Byte} (hp : s.pending = some (.flash page data))
    (hbs : bs.length ≤ data.length) : (s.flash.writeBytes page bs).wf ∧
      ∀ c ∈ s.flash.writeBytes page bs, s.cfg.appStart ≤ c.1 ∧ c.1 < s.cfg.flashSize := by
  obtain ⟨_, hlo, hhi⟩ := pending_page_region h hp
  refine ⟨Memory.writeBytes_wf _ _ h.flashForm, fun c hc => ?_⟩
  rcases Memory.mem_writeBytes hc with hc | hc
  · omega
  · exact h.flashRegion c hc

/-- At most the flag byte, likewise for EE. -/
theorem ee_writeBytes {addr : Nat} {v : Byte} {bs : List Byte} (hp : s.pending = some (.ee addr v))
    (hbs : bs.length ≤ 1) : (s.ee.writeBytes addr bs).wf ∧ ∀ c ∈ s.ee.writeBytes addr bs, c.1 = s.cfg.flagAddr := by
  obtain ⟨rfl, _⟩ := pending_flag_region h hp
  refine ⟨Memory.writeBytes_wf _ _ h.eeForm, fun c hc => ?_⟩
  rcases Memory.mem_writeBytes hc with hc | hc
  · omega
  · exact h.eeRegion c hc

end

/-- Settles O44: with no command in progress neither sequencer is in a state of its commands. -/
theorem betweenCommands : Obligations.BetweenCommands := by
  intro s h hc
  have hq : s.wseq = .idle := wseq_idle h (by simp [hc]) (by simp [hc])
  exact ⟨h.cursorForm.1, cursor_aligned h, ((writerForm_idle hq).mp h.writerForm).1, fsm_idle h (by simp [hc]), hq⟩

/-! ### Power-up and reset -/

theorem powerUp_inv (c : Config) (prog : List HostStmt) (h : c.Admitted) : Inv (State.powerUp c prog) where
  admitted := h
  flashForm := List.Pairwise.nil
  eeForm := List.Pairwise.nil
  flashRegion := fun _ hc => absurd hc List.not_mem_nil
  eeRegion := fun _ hc => absurd hc List.not_mem_nil
  cmdLegal := nofun
  busyBit := rfl
  pageLength := List.length_replicate
  cursorForm := ⟨⟨0, rfl⟩, (Nat.le_add_right _ _).trans h.2.1.2⟩
  counters := ⟨Nat.zero_le _, Nat.zero_le _, Nat.zero_le _⟩
  framerForm := fun hf => absurd rfl hf
  payloadForm := nofun
  writerForm := ⟨rfl, nofun⟩
  commitForm := nofun
  handedOver := fun _ => rfl
  issuedMark := fun hc => absurd rfl hc

/-- Settles O42: every register is at its reset value and both memories are unwritten. -/
theorem invariantAtPowerUp : Obligations.InvariantAtPowerUp :=
  ⟨powerUp_inv, powerUp_inv _ _ (by decide)⟩

section
variable {s : State} (h : Inv s)
include h

theorem resetFlash_region (r : ResetDraw) : (resetFlash r s).wf ∧
    ∀ c ∈ resetFlash r s, s.cfg.appStart ≤ c.1 ∧ c.1 < s.cfg.flashSize := by
  unfold resetFlash
  split
  · rename_i page data _ hp
    exact flash_writeBytes h hp (List.length_take_le ..)
  · exact ⟨h.flashForm, h.flashRegion⟩

theorem resetEE_region (r : ResetDraw) : (resetEE r s).wf ∧ ∀ c ∈ resetEE r s, c.1 = s.cfg.flagAddr := by
  unfold resetEE
  split
  · rename_i addr v _ hp
    exact ee_writeBytes h hp (List.length_take_le ..)
  · exact ⟨h.eeForm, h.eeRegion⟩

/-- A device reset is a power-up but for the memories (R290). -/
theorem deviceReset_inv (r : ResetDraw) : Inv (deviceReset r s) :=
  { powerUp_inv s.cfg s.prog h.admitted with
    flashForm := (resetFlash_region h r).1
    flashRegion := (resetFlash_region h r).2
    eeForm := (resetEE_region h r).1
    eeRegion := (resetEE_region h r).2 }

/-! ### The steps of BLOCK -/

theorem takeEvent_inv : Inv (takeEvent s) := by
  unfold takeEvent
  split <;> exact { h with }

theorem raiseFault_inv (c : FaultCode) (r : FaultRecord) : Inv (raiseFault c r s) := { h with }

/-- The end of a command with both sequencers idle, the writer's `ACC` at 0 and no commit pending. -/
theorem commandEnd_inv {f : Fsm} {p : Bool} {q : Wseq} (hf : f = .idle) (hq : q = .idle) (ha : s.acc = 0)
    (hb : s.nvmBusy = false) : Inv { s with fsm := f, pbv := p, wseq := q, cmd := none } :=
  { h with
    cmdLegal := nofun
    framerForm := fun hne => absurd hf hne
    payloadForm := fun hp => by cases hf.symm.trans hp
    writerForm := writerForm_of_idle hq ha fun hbusy => by cases hb.symm.trans hbusy
    commitForm := fun c hp => by cases (pending_none h hb).symm.trans hp
    handedOver := fun _ => rfl
    issuedMark := fun hc => absurd rfl hc }

/-- A command of neither sequencer ends. -/
theorem plainEnd_inv (hc : s.cmd ≠ none) (hr : s.cmd ≠ some (tableWord .pktRecv))
    (hw : s.cmd ≠ some (tableWord .nvmWrblk)) (hf : s.cmd ≠ some (tableWord .nvmFlag)) :
    Inv { s with cmd := none } :=
  have hq := wseq_idle h hw hf
  have ⟨ha, hb⟩ := idle_quiet h hq (not_handedOver h hc)
  { commandEnd_inv h (p := s.pbv) (fsm_idle h hr) hq ha hb with }

theorem transportNext_inv {t : State} {i : Instr} (hd : decodeCmd (tableWord i) = .ok i)
    (hc : s.cmd = some (tableWord i)) (ht : TransportNext s i t) : Inv t := by
  obtain ⟨_, hr, hw, hf⟩ := transportNext_command ht
  have hend : Inv { s with cmd := none } := by
    apply plainEnd_inv h <;> rw [hc]
    · nofun
    · exact tableWord_ne hd rfl hr
    · exact tableWord_ne hd rfl hw
    · exact tableWord_ne hd rfl hf
  cases ht with
  | holdSend | holdReceive => exact h
  | send | receive | arm | probe => exact { hend with }

theorem crcNext_inv {t : State} (hc : s.cmd = some (tableWord .crcCalc)) (ht : CrcNext s t) : Inv t := by
  cases ht with
  | compute =>
    have hend : Inv { s with cmd := none } := by
      apply plainEnd_inv h <;> rw [hc] <;> decide
    exact { hend with }
  | invalid => exact { h with }

/-- PKT.RECV goes to another framer state, with `PBV = 0` and the counter in its range. -/
theorem framing_inv (hc : s.cmd = some (tableWord .pktRecv)) {f : Fsm} {n : Nat} {p : Bool} (hp : p = false)
    (hn : n ≤ 128) (hpay : f = .readPayload → n < 128) : Inv { s with fsm := f, idx := n, pbv := p } :=
  have hq : s.wseq = .idle := by apply wseq_idle h <;> rw [hc] <;> decide
  have ⟨ha, hb⟩ := (writerForm_idle hq).mp h.writerForm
  { h with
    counters := ⟨hn, h.counters.2⟩
    framerForm := fun _ => ⟨hc, hp⟩
    payloadForm := hpay
    writerForm := writerForm_of_idle hq ha hb }

/-- PKT.RECV ends, with a block or without (R168, R174). -/
theorem framerEnd_inv (hc : s.cmd = some (tableWord .pktRecv)) (p : Bool) :
    Inv { s with fsm := .idle, pbv := p, cmd := none } :=
  have hq : s.wseq = .idle := by apply wseq_idle h <;> rw [hc] <;> decide
  have ⟨ha, hb⟩ := idle_quiet h hq (not_handedOver h (by simp [hc]))
  { commandEnd_inv h (p := p) rfl hq ha hb with }

theorem packetNext_inv {t : State} {b : Byte} (hc : s.cmd = some (tableWord .pktRecv)) (ht : PacketNext s b t) :
    Inv t := by
  have hidx := h.counters.1
  cases ht with
  | blk hf => exact { framing_inv h hc (pbv_framing h hf nofun) hidx (f := .readBlkc) nofun with }
  | blkc hf => exact { framing_inv h hc (pbv_framing h hf nofun) (Nat.zero_le 128) (f := .readPayload) (by simp) with }
  | payload hf hi =>
    refine { framing_inv h hc (pbv_framing h hf nofun) (Nat.succ_le_of_lt hi)
      (f := if s.idx + 1 = 128 then .readCrcHi else .readPayload) (fun hp => ?_) with }
    split at hp
    · cases hp
    · omega
  | crcHi hf => exact { framing_inv h hc (pbv_framing h hf nofun) hidx (f := .readCrcLo) nofun with }
  | crcLo hf => exact { framing_inv h hc (pbv_framing h hf nofun) hidx (f := .validate) nofun with }

theorem framerNext_inv {t : State} (hc : s.cmd = some (tableWord .pktRecv)) (ht : FramerNext s t) : Inv t := by
  have hidx := h.counters.1
  cases ht with
  | hold => exact h
  | start => exact { framing_inv h hc rfl (Nat.zero_le 128) (f := .waitHeader) nofun with }
  | soh q hf => exact { framing_inv h hc (pbv_framing h hf nofun) hidx (f := .readBlk) nofun with }
  | eot q hf => exact { framerEnd_inv h hc s.pbv with }
  | noise b q hf => exact { framing_inv h hc (pbv_framing h hf nofun) hidx (f := .waitHeader) nofun with }
  | data b q _ hq hd =>
    have htaken : Inv { s with rxq := q } := { h with }
    exact packetNext_inv htaken hc hd
  | accepted => exact { framerEnd_inv h hc true with }
  | rejected hf => exact { framing_inv h hc (pbv_framing h hf nofun) hidx (f := .sendNak) nofun with }
  | nak hf => exact { framing_inv h hc (pbv_framing h hf nofun) hidx (f := .waitHeader) nofun with }

/-- Staging a byte fills the page, or leaves it to be filled: 128 is a multiple of `PAGE_SIZE` (R8, R201). -/
theorem staged_writerForm (hw : s.wseq = .stage) (b : List Byte) :
    WriterForm { s with
      pgbuf := b
      paddr := (s.cursor + s.widx) - (s.cursor + s.widx) % s.cfg.pageSize
      acc := s.acc + 1
      widx := s.widx + 1
      wseq := if s.acc + 1 = s.cfg.pageSize then .commit else if s.widx + 1 = 128 then .verify else .stage } := by
  obtain ⟨hc, hv, hr, hi, ha, hb⟩ := (writerForm_stage hw).mp h.writerForm
  have hnext : (s.widx + 1) % s.cfg.pageSize = (s.acc + 1) % s.cfg.pageSize := by rw [ha, Nat.mod_add_mod]
  have hlt : s.acc < s.cfg.pageSize := ha ▸ Nat.mod_lt _ (pageSize_pos h)
  by_cases hfull : s.acc + 1 = s.cfg.pageSize
  · have hpage : (s.cursor + s.widx) % s.cfg.pageSize = s.acc := by
      rw [Nat.add_mod, cursor_aligned h, Nat.zero_add, Nat.mod_mod, ha]
    have hle : s.acc ≤ s.widx := ha ▸ Nat.mod_le _ _
    rw [if_pos hfull]
    refine (writerForm_commit rfl).mpr ⟨hc, hv, hr, Nat.succ_pos _, hi, ?_, ?_, .inr ⟨hfull, hb⟩⟩
    · exact hnext.trans (hfull ▸ Nat.mod_self _)
    · simp only [hpage]
      omega
  · have hmod : (s.widx + 1) % s.cfg.pageSize = s.acc + 1 := hnext.trans (Nat.mod_eq_of_lt (by omega))
    have hmore : s.widx + 1 ≠ 128 := by
      intro hlast
      rw [hlast, h.admitted.1.2] at hmod
      cases hmod
    rw [if_neg hfull, if_neg hmore]
    exact (writerForm_stage rfl).mpr ⟨hc, hv, hr, Nat.lt_of_le_of_ne hi hmore, hmod.symm, hb⟩

/-- After a page's commit the writer stages the next page, or verifies after the last (R202). -/
theorem committed_writerForm (hw : s.wseq = .commit) (hb : s.nvmBusy = false) (ha : s.acc = 0) :
    WriterForm { s with wseq := if s.widx = 128 then .verify else .stage } := by
  obtain ⟨hc, hv, hr, _, hle, hmod, _⟩ := (writerForm_commit hw).mp h.writerForm
  by_cases hlast : s.widx = 128
  · rw [if_pos hlast]
    exact (writerForm_verify rfl).mpr ⟨hc, hv, hr, hlast, ha, hb⟩
  · rw [if_neg hlast]
    exact (writerForm_stage rfl).mpr ⟨hc, hv, hr, Nat.lt_of_le_of_ne hle hlast, ha.trans hmod.symm, hb⟩

theorem writeNext_inv {t : State} (hc : s.cmd = some (tableWord .nvmWrblk)) (ht : WriteNext s t) : Inv t := by
  have hpos := pageSize_pos h
  have hfsm : s.fsm = .idle := fsm_idle h (by rw [hc]; decide)
  obtain ⟨hidx, hwidx, hacc⟩ := h.counters
  have hform := h.writerForm
  cases ht with
  | invalid | range => exact { h with }
  | start hw hv hr =>
    obtain ⟨ha, hb⟩ := idle_quiet h hw (not_handedOver h (by simp [hc]))
    exact
      { h with
        counters := ⟨hidx, Nat.zero_le _, hacc⟩
        writerForm := ⟨hc, hv, hr, Nat.zero_lt_succ _, ha.trans (Nat.zero_mod _).symm, hb⟩
        commitForm := fun c hp => by cases (pending_none h hb).symm.trans hp }
  | stage hw hi =>
    obtain ⟨_, _, _, _, ha, hb⟩ := (writerForm_stage hw).mp hform
    exact
      { h with
        pageLength := List.length_set.trans h.pageLength
        counters := ⟨hidx, hi, by have := Nat.mod_lt s.widx hpos; simp only; omega⟩
        framerForm := fun hf => absurd hfsm hf
        writerForm := staged_writerForm h hw _
        commitForm := fun c hp => by cases (pending_none h hb).symm.trans hp }
  | holdCommit => exact h
  | commit hw hb ha =>
    obtain ⟨_, hv, hr, h0, h1, hmod, haddr, _⟩ := (writerForm_commit hw).mp hform
    exact
      { h with
        busyBit := rfl
        counters := ⟨hidx, hwidx, Nat.zero_le _⟩
        writerForm := by
          refine (writerForm_commit ?_).mpr ⟨hc, hv, hr, h0, h1, hmod, haddr, .inl rfl⟩
          exact hw
        commitForm := fun c hp => by cases hp; exact ⟨hw, rfl, rfl, h.pageLength⟩ }
  | committed hw hb ha =>
    exact
      { h with
        writerForm := committed_writerForm h hw hb ha
        commitForm := fun c hp => by cases (pending_none h hb).symm.trans hp }
  | verified hw hr hv =>
    obtain ⟨_, _, _, _, ha, hb⟩ := (writerForm_verify hw).mp hform
    obtain ⟨⟨k, hk⟩, _⟩ := h.cursorForm
    exact { commandEnd_inv h (p := s.pbv) hfsm rfl ha hb with cursorForm := ⟨⟨k + 1, by simp only [hk]; omega⟩, hr⟩ }
  | mismatch hw hr hv =>
    obtain ⟨_, _, _, _, ha, hb⟩ := (writerForm_verify hw).mp hform
    exact { commandEnd_inv h (p := s.pbv) hfsm rfl ha hb with }

theorem flagNext_inv {t : State} (hc : s.cmd = some (tableWord .nvmFlag)) (ht : FlagNext s t) : Inv t := by
  cases ht with
  | hold => exact h
  | issue hw hb =>
    exact
      { h with
        busyBit := rfl
        writerForm := ⟨hc, ((writerForm_idle hw).mp h.writerForm).1⟩
        commitForm := fun c hp => by cases hp; exact ⟨rfl, .inl rfl⟩ }
  | finish hw hb =>
    have hfsm : s.fsm = .idle := fsm_idle h (by rw [hc]; decide)
    obtain ⟨_, ha⟩ := (writerForm_flag hw).mp h.writerForm
    exact { commandEnd_inv h (p := s.pbv) hfsm rfl ha hb with }

theorem blockNext_inv {t : State} (ht : BlockNext s t) : Inv t := by
  cases ht with
  | transport i hd hc ht => exact transportNext_inv h hd hc ht
  | crc hc ht => exact crcNext_inv h hc ht
  | framer hc ht => exact framerNext_inv h hc ht
  | write hc ht => exact writeNext_inv h hc ht
  | flag hc ht => exact flagNext_inv h hc ht

/-! ### The steps of the other agents -/

/-- HOST, with no command in progress and not past the transfer of control, moves on: it may issue a legal word, or
pass control on with no command. -/
theorem hostMove_inv (hc : s.cmd = none) (hh : ∃ n k, s.hpc = .stmt n k) {w : Option Word} {p : HostPc} {b : Bool}
    (hw : ∀ v, w = some v → b = true ∧ (∃ i, decodeCmd v = .ok i) ∧ ∃ n k, p = .stmt n k) :
    Inv { s with cmd := w, hpc := p, issued := b } := by
  have hq : s.wseq = .idle := wseq_idle h (by simp [hc]) (by simp [hc])
  obtain ⟨n, k, hh⟩ := hh
  obtain ⟨ha, hb⟩ := idle_quiet h hq fun hover => hover n k hh
  exact
    { h with
      cmdLegal := fun v hv => (hw v hv).2.1
      framerForm := fun hf => absurd (fsm_idle h (by simp [hc])) hf
      writerForm := writerForm_of_idle hq ha fun hbusy => by cases hb.symm.trans hbusy
      commitForm := fun c hp => by cases (pending_none h hb).symm.trans hp
      handedOver := fun hover => by
        cases w with
        | none => rfl
        | some v => obtain ⟨_, _, m, j, hp⟩ := hw v rfl; exact absurd hp (hover m j)
      issuedMark := fun hne => by
        cases w with
        | none => exact absurd rfl hne
        | some v => exact (hw v rfl).1 }

theorem hostNext_inv {t : State} (hc : s.cmd = none) (hh : ∃ n k, s.hpc = .stmt n k) (ht : HostNext s t) : Inv t := by
  have moved (p : HostPc) : Inv { s with hpc := p } :=
    { hostMove_inv h hc hh (w := s.cmd) (p := p) (b := s.issued) (by simp [hc]) with }
  cases ht with
  | none => exact h
  | issued w i n k hd =>
    exact hostMove_inv h hc hh fun v hv => by cases hv; exact ⟨rfl, ⟨i, hd⟩, n, k, rfl⟩
  | illegal w => exact raiseFault_inv h _ _
  | moved n k => exact moved (.stmt n k)
  | led n => exact { moved (.stmt n 0) with }
  | waiting => exact { h with }
  | released n => exact { moved (.stmt n 0) with }
  | update n => exact { moved (.stmt n 0) with }
  | transfer => exact { moved (.app s.cfg.appStart) with }
  | reset r => exact deviceReset_inv h r

/-- The end of a commit leaves what the writer's sequencer says of the writer's registers (R80). -/
theorem commitDone_writerForm : WriterForm (commitDone s) := by
  have hform := h.writerForm
  cases hw : s.wseq <;> simp only [WriterForm, commitDone, hw] at hform ⊢
  case idle => exact ⟨hform.1, nofun⟩
  case stage | verify =>
    obtain ⟨hc, hv, hr, hi, ha, _⟩ := hform
    exact ⟨hc, hv, hr, hi, ha, trivial⟩
  case commit =>
    obtain ⟨hc, hv, hr, h0, hle, hmod, haddr, ha⟩ := hform
    exact ⟨hc, hv, hr, h0, hle, hmod, haddr, ha.imp_right fun hfull => ⟨hfull.1, trivial⟩⟩
  case flag => exact hform

theorem commitDone_inv : Inv (commitDone s) :=
  { h with
    busyBit := rfl
    commitForm := nofun
    writerForm := commitDone_writerForm h }

theorem outsideNext_inv {t : State} (ht : OutsideNext s t) : Inv t := by
  cases ht with
  | none => exact h
  | badRead n => exact raiseFault_inv h _ _
  | edge | byte | drain => exact { h with }
  | page page buf draw hb hp =>
    obtain ⟨hwf, hregion⟩ := flash_writeBytes h hp (oracleBytes_length draw buf).le
    exact { commitDone_inv h with flashForm := hwf, flashRegion := hregion, pageLength := List.length_replicate }
  | flagByte addr v draw hb hp =>
    obtain ⟨hwf, hregion⟩ := ee_writeBytes h hp (oracleBytes_length draw [v]).le
    exact { commitDone_inv h with eeForm := hwf, eeRegion := hregion }
  | request entry hh hb =>
    have hc : s.cmd = none := h.handedOver fun n k => by rw [hh]; nofun
    have hq : s.wseq = .idle := wseq_idle h (by simp [hc]) (by simp [hc])
    exact
      { h with
        busyBit := rfl
        writerForm := writerForm_of_idle hq ((writerForm_idle hq).mp h.writerForm).1 fun _ => rfl
        commitForm := fun c hp => by cases hp; exact ⟨rfl, .inr rfl⟩
        handedOver := fun _ => hc }
  | reset r => exact deviceReset_inv h r

end

/-- Settles O43: the script is no part of the invariant, and each kind of step `step_next` names keeps it. -/
theorem everyStepKeepsTheInvariant : Obligations.EveryStepKeepsTheInvariant := by
  intro s t h hstep
  have hu : Inv (takeEvent s) := takeEvent_inv h
  obtain rfl | ⟨_, w, i, hc, hd, hx⟩ | ⟨_, w, e, _, _, rfl⟩ | ⟨_, hc, hh, hx⟩ | ⟨_, hx⟩ := step_next hstep
  · exact hu
  · exact blockNext_inv hu (exec_blockNext (by simpa using hc) hd hx)
  · exact raiseFault_inv hu _ _
  · exact hostNext_inv hu (by simpa using hc) (by simpa using hh) hx
  · exact outsideNext_inv hu hx

end Sys2Proof.Proofs.Invariants
end

section
/-! SUPPORT. Where a step stops: under the invariant every instruction in progress runs, and every agent's step answers
a next state or one of the refusals the spec gives HOST's own requests. -/

namespace Sys2Proof.Proofs.Invariants
open Sys2Proof.Machine
open Sys2Proof.Safety
open Sys2Proof.Proofs.Registers

/-- The refusals of HOST's own requests (R52, R55, R90, R242, U6, U20). -/
def OwnRefusal (e : Event) (r : Refusal) : Prop :=
  (∃ n, e = .hostRead n ∧ (r = .reservedRegister n ∨ r = .unwrittenRegister n)) ∨
  (∃ w, e = .issue w ∧ r = .issuedFromApplication w) ∨
  (∃ c d, e = .host c d ∧ r = .jumpWithoutReset)

/-- The answer is a next state. -/
def Runs (o : Out) : Prop := ∃ t, o = .next t

theorem runs_next (t : State) : Runs (.next t) := ⟨t, rfl⟩

/-! ### BLOCK -/

theorem takeByte_runs {b : Byte} {k : State → Out} {s : State} (hk : ∀ q, Runs (k { s with rxq := q })) :
    Runs (takeByte b k s) := by
  unfold takeByte
  split
  · exact runs_next _
  · split
    · exact hk _
    · exact runs_next _

/-- A byte of the packet has its place, since READ_PAYLOAD has one left to read (R171). -/
theorem packetByte_runs {b : Byte} {s : State} (h : s.fsm = .readPayload → s.idx < 128) : Runs (packetByte b s) := by
  cases hf : s.fsm <;> simp only [packetByte, hf]
  case readPayload =>
    rw [storePayload, if_pos (h hf)]
    exact runs_next _
  all_goals exact runs_next _

theorem readStep_runs {s : State} (h : s.fsm = .readPayload → s.idx < 128) : Runs (readStep s) := by
  unfold readStep
  cases hq : s.rxq with
  | nil => rw [recvByte_nil hq]; exact runs_next _
  | cons b q => rw [recvByte_cons hq]; exact packetByte_runs h

theorem exec_decodeWire_runs {s : State} (hf : s.fsm = .waitHeader) (b : Byte) : Runs (exec (decodeWire b) s) := by
  unfold decodeWire
  split
  · rw [exec, execWireSoh, if_pos hf]
    exact takeByte_runs fun _ => runs_next _
  · split
    · rw [exec, execWireEot, if_pos hf]
      exact takeByte_runs fun _ => runs_next _
    · rw [exec, execWireNoise, if_pos hf]
      exact takeByte_runs fun _ => runs_next _

theorem execTxSend_runs (b : Byte) (s : State) : Runs (execTxSend b s) := by
  unfold execTxSend
  split <;> exact runs_next _

theorem execRxRecv_runs (s : State) : Runs (execRxRecv s) := by
  unfold execRxRecv
  split <;> exact runs_next _

theorem execCrcCalc_runs (s : State) : Runs (execCrcCalc s) := by
  unfold execCrcCalc
  split <;> exact runs_next _

/-- PKT.RECV runs in every state of the framer, by itself or by the header byte it fetches. -/
theorem pktRecv_runs {s : State} (h : s.fsm = .readPayload → s.idx < 128) : Runs (exec (headerOr .pktRecv s) s) := by
  by_cases hf : s.fsm = .waitHeader
  · cases hq : s.rxq with
    | nil =>
      rw [headerOr_self fun _ _ => hq]
      simp only [exec, execPktRecv, hf, waitHeaderStep, hq]
      exact runs_next s
    | cons b q =>
      rw [headerOr_front hf hq]
      exact exec_decodeWire_runs hf b
  · rw [headerOr_self fun _ hw => absurd hw hf]
    cases hw : s.fsm <;> simp only [exec, execPktRecv, hw]
    case waitHeader => exact absurd hw hf
    case idle | validate | sendNak => exact runs_next _
    all_goals exact readStep_runs h

/-- NVM.WRBLK finds only its own states, its byte of `PB`, and the block inside FLASH. -/
theorem execNvmWrblk_runs {s : State} (h : Inv s) (hc : s.cmd = some (tableWord .nvmWrblk)) :
    Runs (execNvmWrblk s) := by
  have hform := h.writerForm
  cases hw : s.wseq <;> simp only [execNvmWrblk, hw]
  case idle | commit => exact runs_next _
  case stage =>
    obtain ⟨_, _, _, hi, _⟩ := (writerForm_stage hw).mp hform
    rw [stageStep, payloadByte, Vector.getElem?_eq_getElem hi]
    exact runs_next _
  case verify =>
    obtain ⟨_, _, hr, _⟩ := (writerForm_verify hw).mp hform
    rw [verifyStep, if_pos hr]
    exact runs_next _
  case flag => cases hc.symm.trans ((writerForm_flag hw).mp hform).1

theorem execNvmFlag_runs {s : State} (h : Inv s) (hc : s.cmd = some (tableWord .nvmFlag)) : Runs (execNvmFlag s) := by
  have hform := h.writerForm
  cases hw : s.wseq <;> simp only [execNvmFlag, hw]
  case idle | flag => exact runs_next _
  case stage => cases hc.symm.trans ((writerForm_stage hw).mp hform).1
  case commit => cases hc.symm.trans ((writerForm_commit hw).mp hform).1
  case verify => cases hc.symm.trans ((writerForm_verify hw).mp hform).1

/-- Every instruction in progress runs. -/
theorem exec_runs {s : State} {i : Instr} (h : Inv s) (hc : s.cmd = some (tableWord i)) (hs : i.space = .command) :
    Runs (exec (headerOr i s) s) := by
  by_cases hp : i = .pktRecv
  · rw [hp]
    exact pktRecv_runs h.payloadForm
  · rw [headerOr_self fun hi => absurd hi hp]
    cases i with
    | txSend b => exact execTxSend_runs b s
    | rxRecv => exact execRxRecv_runs s
    | actArm | actProbe => exact runs_next _
    | crcCalc => exact execCrcCalc_runs s
    | pktRecv => exact absurd rfl hp
    | nvmWrblk => exact execNvmWrblk_runs h hc
    | nvmFlag => exact execNvmFlag_runs h hc
    | wireSoh | wireEot | wireNoise => cases hs

theorem blockStep_runs {s : State} (h : Inv s) : Runs (blockStep s) := by
  cases hc : s.cmd with
  | none => simp only [blockStep, fetch, hc]; exact runs_next s
  | some w =>
    obtain ⟨i, hd⟩ := h.cmdLegal w hc
    rw [blockStep_decoded hc hd]
    obtain rfl := tableWord_of_decodeCmd hd
    exact exec_runs h hc (space_of_decodeCmd hd)

/-! ### The other agents -/

theorem nvmComplete_runs {s : State} (h : Inv s) (draw : List Byte) : Runs (nvmComplete draw s) := by
  unfold nvmComplete
  split
  · rename_i page buf _ hp
    obtain ⟨_, _, hhi⟩ := pending_page_region h hp
    rw [if_pos hhi]
    exact runs_next _
  · rename_i addr v _ hp
    rw [if_pos (pending_flag_region h hp).2]
    exact runs_next _
  · exact runs_next s

theorem transferToApp_runs_or_refuses (s : State) :
    Runs (transferToApp s) ∨ transferToApp s = .refused .jumpWithoutReset := by
  unfold transferToApp
  split
  · exact .inl (runs_next _)
  · exact .inr rfl

theorem stmtStep_runs_or_refuses {s : State} (h : Inv s) (n k : Nat) (ctrl : Bool) (r : ResetDraw) (st : HostStmt) :
    Runs (stmtStep n k ctrl r s st) ∨ stmtStep n k ctrl r s st = .refused .jumpWithoutReset := by
  cases st with
  | entry =>
    have hflag : s.cfg.flagAddr < s.cfg.eepromSize := h.admitted.2.2.2.1
    rw [stmtStep, entryStep, if_pos hflag]
    split
    · exact .inl (runs_next _)
    · exact transferToApp_runs_or_refuses _
  | jmpApp => exact transferToApp_runs_or_refuses s
  | _ => exact .inl (runs_next _)

theorem hostStep_runs_or_refuses {s : State} (h : Inv s) (ctrl : Bool) (r : ResetDraw) :
    Runs (hostStep ctrl r s) ∨ hostStep ctrl r s = .refused .jumpWithoutReset := by
  unfold hostStep
  split
  · exact .inl (runs_next s)
  · split
    · exact .inl (runs_next s)
    · exact .inl (runs_next s)
    · split
      · exact .inl (runs_next s)
      · exact stmtStep_runs_or_refuses h _ _ ctrl r _

theorem issueStep_runs_or_refuses (w : Word) (s : State) :
    Runs (issueStep w s) ∨ issueStep w s = .refused (.issuedFromApplication w) := by
  unfold issueStep
  split
  · exact .inl (runs_next s)
  · split
    · exact .inr rfl
    · exact .inr rfl
    · exact .inl (runs_next _)

theorem readView_cases (outside : Out) (n : Nat) (s : State) :
    Runs (readView outside n s) ∨ readView outside n s = outside ∨
    ∃ r, readView outside n s = .refused r ∧ OwnRefusal (.hostRead n) r := by
  unfold readView
  split
  · exact .inl (runs_next s)
  · exact .inr (.inl rfl)
  · exact .inr (.inr ⟨_, rfl, .inl ⟨n, rfl, .inl rfl⟩⟩)
  · exact .inr (.inr ⟨_, rfl, .inl ⟨n, rfl, .inr rfl⟩⟩)

/-- Every agent's step answers a next state or one of HOST's own refusals. -/
theorem agentStep_cases {s : State} (h : Inv s) (e : Event) :
    Runs (agentStep e s) ∨ ∃ r, agentStep e s = .refused r ∧ OwnRefusal e r := by
  cases e with
  | block => exact .inl (blockStep_runs h)
  | host c d => exact (hostStep_runs_or_refuses h c d).imp_right fun hr => ⟨_, hr, .inr (.inr ⟨c, d, rfl, rfl⟩)⟩
  | issue w => exact (issueStep_runs_or_refuses w s).imp_right fun hr => ⟨_, hr, .inr (.inl ⟨w, rfl, rfl⟩)⟩
  | hostRead n =>
    obtain hn | hn | hn := readView_cases (.next (raiseFault .pbInvalid (.register n) s)) n s
    · exact .inl hn
    · exact .inl ⟨_, hn⟩
    · exact .inr hn
  | nvm draw => exact .inl (nvmComplete_runs h draw)
  | app | rxEdge | rxByte | txDrain | reset => exact .inl (runs_next _)

/-- After a fault every step stops, but for a read, which answers or is refused for its register. -/
theorem afterFault_cases (e : Event) (s : State) :
    Runs (afterFault e s) ∨ afterFault e s = .fault (.stopped s.fault) ∨
    ∃ r, afterFault e s = .refused r ∧ OwnRefusal e r := by
  cases e with
  | hostRead n => exact readView_cases _ n s
  | _ => exact .inr (.inl rfl)

/-- What a step answers under the invariant, said once. -/
theorem step_cases {s : State} (h : Inv s) :
    Runs (step s) ∨ (s.fault ≠ .none ∧ step s = .fault (.stopped s.fault)) ∨
    ∃ r, step s = .refused r ∧ OwnRefusal (nextEvent s) r := by
  rw [step, if_pos h.admitted]
  split
  · rename_i hf
    have hcases := afterFault_cases (nextEvent s) (takeEvent s)
    rw [takeEvent_fault] at hcases
    exact hcases.imp_right (Or.imp_left fun hs => ⟨faulted_eq_true.mp hf, hs⟩)
  · exact (agentStep_cases (takeEvent_inv h) (nextEvent s)).imp_right .inr

/-- Settles O45: of the three answers `step_cases` leaves, one is a fault and one a refusal. -/
theorem noStopButTheSpecsOwn : Obligations.NoStopButTheSpecsOwn := by
  intro s h
  obtain ⟨t, ht⟩ | ⟨hf, ht⟩ | ⟨r, ht, hr⟩ := step_cases h <;> rw [ht]
  · exact ⟨nofun, nofun⟩
  · exact ⟨fun f hstop => by cases hstop; exact ⟨hf, rfl⟩, nofun⟩
  · exact ⟨nofun, fun r' href => by cases href; exact hr⟩

end Sys2Proof.Proofs.Invariants
end

section
/-! SUPPORT. What the steps do to FLASH and EE, the steps of NVM, and the transfer of control (20_memory.md). -/

namespace Sys2Proof.Proofs.Memories
open Sys2Proof.Machine
open Sys2Proof.Safety
open Sys2Proof.Proofs.Invariants

/-! ### A byte after a run of writes -/

theorem flashByte_writeBytes {s t : State} {page j : Nat} {bs : List Byte} {b : Byte}
    (h : t.flash = s.flash.writeBytes page bs) (hj : bs[j]? = some b) : flashByte (page + j) t = b := by
  obtain ⟨hlt, rfl⟩ := List.getElem?_eq_some_iff.mp hj
  rw [flashByte, h, Memory.read_writeBytes _ _ _ hlt, Option.getD_some]

theorem eeByte_writeBytes {s t : State} {addr j : Nat} {bs : List Byte} {b : Byte}
    (h : t.ee = s.ee.writeBytes addr bs) (hj : bs[j]? = some b) : eeByte (addr + j) t = b := by
  obtain ⟨hlt, rfl⟩ := List.getElem?_eq_some_iff.mp hj
  rw [eeByte, h, Memory.read_writeBytes _ _ _ hlt, Option.getD_some]

theorem flashByte_writeBytes_outside {s t : State} {page a : Nat} {bs : List Byte}
    (h : t.flash = s.flash.writeBytes page bs) (ha : a < page ∨ page + bs.length ≤ a) :
    flashByte a t = flashByte a s := by
  rw [flashByte, h, Memory.read_writeBytes_outside _ _ ha, flashByte]

theorem eeByte_writeBytes_outside {s t : State} {addr a : Nat} {bs : List Byte}
    (h : t.ee = s.ee.writeBytes addr bs) (ha : a < addr ∨ addr + bs.length ≤ a) : eeByte a t = eeByte a s := by
  rw [eeByte, h, Memory.read_writeBytes_outside _ _ ha, eeByte]

/-! ### What BLOCK leaves unchanged -/

/-- Both memories and where the host stands are as before. -/
structure CommandFrame (s t : State) : Prop where
  flash : t.flash = s.flash
  ee : t.ee = s.ee
  hpc : t.hpc = s.hpc
  mode : t.mode = s.mode
  issued : t.issued = s.issued

theorem transportNext_frame {i : Instr} {s t : State} (h : TransportNext s i t) : CommandFrame s t := by
  cases h <;> exact ⟨rfl, rfl, rfl, rfl, rfl⟩

theorem crcNext_frame {s t : State} (h : CrcNext s t) : CommandFrame s t := by
  cases h <;> exact ⟨rfl, rfl, rfl, rfl, rfl⟩

theorem packetNext_frame {b : Byte} {s t : State} (h : PacketNext s b t) : CommandFrame s t := by
  cases h <;> exact ⟨rfl, rfl, rfl, rfl, rfl⟩

theorem framerNext_frame {s t : State} (h : FramerNext s t) : CommandFrame s t := by
  cases h with
  | data b q _ hq h => exact { packetNext_frame h with }
  | _ => exact ⟨rfl, rfl, rfl, rfl, rfl⟩

theorem writeNext_frame {s t : State} (h : WriteNext s t) : CommandFrame s t := by
  cases h <;> exact ⟨rfl, rfl, rfl, rfl, rfl⟩

theorem flagNext_frame {s t : State} (h : FlagNext s t) : CommandFrame s t := by
  cases h <;> exact ⟨rfl, rfl, rfl, rfl, rfl⟩

theorem exec_frame {i : Instr} {s t : State} (h : exec i s = .next t) : CommandFrame s t := by
  obtain h | ⟨_, h⟩ | ⟨_, h⟩ | ⟨_, h⟩ | ⟨_, h⟩ := exec_next h
  · exact transportNext_frame h
  · exact crcNext_frame h
  · exact framerNext_frame h
  · exact writeNext_frame h
  · exact flagNext_frame h

/-- Settles O37: the meanings issue commits, and no next state of theirs has another memory. -/
theorem commandsLeaveTheMemories : Obligations.CommandsLeaveTheMemories := by
  intro i s t h
  have frame := exec_frame h
  exact ⟨flashByte_congr frame.flash, eeByte_congr frame.ee⟩

/-! ### What a step does to the memories -/

/-- What a step of any agent does to the memories: nothing, or it writes bytes of the pending commit (R80, R83). -/
inductive MemoryNext (s t : State) : Prop where
  | kept (hf : t.flash = s.flash) (he : t.ee = s.ee)
  | page (page : Nat) (data bs : List Byte) (hp : s.pending = some (.flash page data))
      (hlen : bs.length ≤ data.length) (hf : t.flash = s.flash.writeBytes page bs) (he : t.ee = s.ee)
  | flagByte (addr : Nat) (v : Byte) (bs : List Byte) (hp : s.pending = some (.ee addr v))
      (hlen : bs.length ≤ 1) (hf : t.flash = s.flash) (he : t.ee = s.ee.writeBytes addr bs)

/-- A reset cuts the pending commit, if there is one: a part of its bytes, from the first on, are drawn (R83). -/
theorem deviceReset_memoryNext (r : ResetDraw) (s : State) : MemoryNext s (deviceReset r s) := by
  cases hb : s.nvmBusy with
  | false => exact .kept (by simp [resetFlash, hb]) (by simp [resetEE, hb])
  | true =>
    cases hp : s.pending with
    | none => exact .kept (by simp [resetFlash, hp]) (by simp [resetEE, hp])
    | some c =>
      cases c with
      | flash page data =>
        exact .page page data (r.cut.take data.length) hp (List.length_take_le ..)
          (by simp [resetFlash, hb, hp]) (by simp [resetEE, hp])
      | ee addr v =>
        exact .flagByte addr v (r.cut.take 1) hp (List.length_take_le ..)
          (by simp [resetFlash, hp]) (by simp [resetEE, hb, hp])

theorem hostNext_memoryNext {s t : State} (h : HostNext s t) : MemoryNext s t := by
  cases h with
  | reset r => exact deviceReset_memoryNext r s
  | _ => exact .kept rfl rfl

theorem outsideNext_memoryNext {s t : State} (h : OutsideNext s t) : MemoryNext s t := by
  cases h with
  | page page buf draw _ hp => exact .page page buf _ hp (oracleBytes_length draw buf).le rfl rfl
  | flagByte addr v draw _ hp => exact .flagByte addr v _ hp (oracleBytes_length draw [v]).le rfl rfl
  | reset r => exact deviceReset_memoryNext r s
  | _ => exact .kept rfl rfl

theorem memoryNext_of_takeEvent {s t : State} (h : MemoryNext (takeEvent s) t) : MemoryNext s t := by
  cases h with
  | kept hf he => exact .kept (by simpa using hf) (by simpa using he)
  | page page data bs hp hlen hf he =>
    exact .page page data bs (by simpa using hp) hlen (by simpa using hf) (by simpa using he)
  | flagByte addr v bs hp hlen hf he =>
    exact .flagByte addr v bs (by simpa using hp) hlen (by simpa using hf) (by simpa using he)

theorem step_memoryNext {s t : State} (h : step s = .next t) : MemoryNext s t := by
  apply memoryNext_of_takeEvent
  obtain rfl | ⟨_, w, i, _, _, h⟩ | ⟨_, w, e, _, _, rfl⟩ | ⟨_, _, _, h⟩ | ⟨_, h⟩ := step_next h
  · exact .kept rfl rfl
  · exact .kept (exec_frame h).flash (exec_frame h).ee
  · exact .kept rfl rfl
  · exact hostNext_memoryNext h
  · exact outsideNext_memoryNext h

/-- A byte of FLASH outside the pending page is as before. -/
theorem flashByte_memoryNext {s t : State} (h : MemoryNext s t) {a : Nat}
    (ha : ∀ page data, s.pending = some (.flash page data) → a < page ∨ page + data.length ≤ a) :
    flashByte a t = flashByte a s := by
  cases h with
  | page page data bs hp hlen hf =>
    have hout := ha page data hp
    exact flashByte_writeBytes_outside hf (by omega)
  | kept hf | flagByte _ _ _ _ _ hf => exact flashByte_congr hf a

/-- A byte of EE that no pending flag write names is as before. -/
theorem eeByte_memoryNext {s t : State} (h : MemoryNext s t) {a : Nat}
    (ha : ∀ addr v, s.pending = some (.ee addr v) → a ≠ addr) : eeByte a t = eeByte a s := by
  cases h with
  | flagByte addr v bs hp hlen _ he =>
    have hne := ha addr v hp
    exact eeByte_writeBytes_outside he (by omega)
  | kept _ he | page _ _ _ _ _ _ he => exact eeByte_congr he a

/-- Settles O46: a step writes FLASH only in the pending page, and under the invariant that page lies in the
application region. -/
theorem engineRegionIsNeverWritten : Obligations.EngineRegionIsNeverWritten := by
  intro s t h hstep a ha
  refine flashByte_memoryNext (step_memoryNext hstep) fun page data hp => .inl ?_
  obtain ⟨_, hlo, _⟩ := pending_page_region h hp
  exact Nat.lt_of_lt_of_le ha hlo

/-- Settles O48: a step changes a memory only by a run of writes, which keeps the canonical form. -/
theorem everyStepKeepsMemoryCanonical : Obligations.EveryStepKeepsMemoryCanonical := by
  intro s t hflash hee hstep
  cases step_memoryNext hstep with
  | kept hf he => exact ⟨hf ▸ hflash, he ▸ hee⟩
  | page page data bs _ _ hf he => exact ⟨hf ▸ Memory.writeBytes_wf page bs hflash, he ▸ hee⟩
  | flagByte addr v bs _ _ hf he => exact ⟨hf ▸ hflash, he ▸ Memory.writeBytes_wf addr bs hee⟩

/-- Settles O51: the reset draws bytes of the pending commit only, and a commit is in one memory. -/
theorem resetCutsAtMostTheCommit : Obligations.ResetCutsAtMostTheCommit := by
  intro s r
  have reset := deviceReset_memoryNext r s
  refine ⟨fun page data hp => ⟨fun a ha => ?_, fun a => ?_⟩, fun addr v hp => ⟨fun a => ?_, fun a ha => ?_⟩⟩
  · exact flashByte_memoryNext reset fun _ _ hq => by cases hp.symm.trans hq; exact ha
  · exact eeByte_memoryNext reset (by simp [hp])
  · exact flashByte_memoryNext reset (by simp [hp])
  · exact eeByte_memoryNext reset fun _ _ hq => by cases hp.symm.trans hq; exact ha

/-! ### NVM's completion and the writer's commit -/

theorem nvmComplete_page {s : State} {page : Nat} {data : List Byte} (draw : List Byte) (hb : s.nvmBusy = true)
    (hp : s.pending = some (.flash page data)) (hr : page + data.length ≤ s.cfg.flashSize) :
    nvmComplete draw s = .next (commitDone { s with
      flash := s.flash.writeBytes page (oracleBytes draw data), pgbuf := blankPage s.cfg }) := by
  simp only [nvmComplete, hb, hp, if_pos hr]

theorem nvmComplete_flagByte {s : State} {addr : Nat} {v : Byte} (draw : List Byte) (hb : s.nvmBusy = true)
    (hp : s.pending = some (.ee addr v)) (hr : addr < s.cfg.eepromSize) :
    nvmComplete draw s = .next (commitDone { s with ee := s.ee.writeBytes addr (oracleBytes draw [v]) }) := by
  simp only [nvmComplete, hb, hp, if_pos hr]

/-- Settles O38: the page holds what the oracle's draw leaves, and a run of writes reaches no byte outside it. -/
theorem completionWritesOnePage : Obligations.CompletionWritesOnePage := by
  intro s rest draw data page hs hb hp hr
  have hlen := oracleBytes_length draw data
  refine ⟨_, (step_scheduled hs).trans (nvmComplete_page draw hb hp hr), fun j hj => ?_, fun a ha => ?_,
    rfl, rfl, rfl, rfl, rfl⟩
  · exact flashByte_writeBytes rfl (oracleBytes_get draw data hj)
  · exact flashByte_writeBytes_outside rfl (hlen.symm ▸ ha)

/-- Settles O39: the run of writes is the one byte that the oracle's draw leaves. -/
theorem completionWritesTheFlagByte : Obligations.CompletionWritesTheFlagByte := by
  intro s rest draw addr v hs hb hp hr
  have hlen : (oracleBytes draw [v]).length = 1 := oracleBytes_length draw [v]
  refine ⟨_, (step_scheduled hs).trans (nvmComplete_flagByte draw hb hp hr), ?_, fun a ha => ?_, rfl, rfl, rfl, rfl⟩
  · rw [List.head?_eq_getElem?]
    exact eeByte_writeBytes (j := 0) rfl (oracleBytes_get draw [v] Nat.one_pos)
  · exact eeByte_writeBytes_outside rfl (by omega)

theorem exec_nvmWrblk_commit {s : State} (hw : s.wseq = .commit) : exec .nvmWrblk s = .next (commitStep s) := by
  rw [exec, execNvmWrblk, hw]

/-- Settles O33: `commitStep` tests `NVMBUSY` first and then `ACC`. -/
theorem commitIssuesHoldsAndGoesOn : Obligations.CommitIssuesHoldsAndGoesOn := by
  intro s hw
  rw [exec_nvmWrblk_commit hw, commitStep]
  refine ⟨fun hb ha => ?_, fun hb => ?_, fun hb ha => ?_⟩
  · rw [if_neg (by simp [hb]), if_pos ha, beginCommit, startCommit]
  · rw [if_pos hb]
  · rw [if_neg (by simp [hb]), if_neg (by simp [ha])]

/-! ### The transfer of control -/

/-- HOST reaches the application only by the transfer (R242). -/
theorem hostNext_app {s t : State} {e : Nat} (h : HostNext s t) (he : t.hpc = .app e) :
    s.hpc = .app e ∨ freshBoot s ∧ t.hpc = .app s.cfg.appStart ∧ t.mode = .app := by
  cases h with
  | transfer p hf => exact .inr ⟨hf, rfl, rfl⟩
  | none | illegal | waiting => exact .inl he
  | issued | moved | led | released | update | reset => cases he

/-- No other agent does. -/
theorem outsideNext_app {s t : State} {e : Nat} (h : OutsideNext s t) (he : t.hpc = .app e) : s.hpc = .app e := by
  cases h with
  | request | reset => cases he
  | none | badRead | edge | byte | drain | page | flagByte => exact he

/-- HOST comes back to BOOT with no command issued only by a reset. -/
theorem hostNext_freshBoot {s t : State} (h : HostNext s t) (ht : freshBoot t) :
    freshBoot s ∨ ∃ r, t = deviceReset r s := by
  cases h with
  | reset r => exact .inr ⟨r, rfl⟩
  | issued => cases ht.2
  | update | transfer => cases ht.1
  | none | illegal | moved | led | waiting | released => exact .inl ht

theorem outsideNext_freshBoot {s t : State} (h : OutsideNext s t) (ht : freshBoot t) :
    freshBoot s ∨ ∃ r, t = deviceReset r s := by
  cases h with
  | reset r => exact .inr ⟨r, rfl⟩
  | none | badRead | edge | byte | drain | page | flagByte | request => exact .inl ht

theorem step_app {s t : State} {e : Nat} (h : step s = .next t) (he : t.hpc = .app e) :
    s.hpc = .app e ∨ freshBoot s ∧ t.hpc = .app s.cfg.appStart ∧ t.mode = .app := by
  rw [← takeEvent_hpc]
  obtain rfl | ⟨_, w, i, _, _, h⟩ | ⟨_, w, x, _, _, rfl⟩ | ⟨_, _, _, h⟩ | ⟨_, h⟩ := step_next h
  · exact .inl he
  · exact .inl ((exec_frame h).hpc.symm.trans he)
  · exact .inl he
  · simpa [freshBoot] using hostNext_app h he
  · exact .inl (outsideNext_app h he)

theorem step_freshBoot {s t : State} (h : step s = .next t) (ht : freshBoot t) :
    freshBoot s ∨ ∃ r, t = deviceReset r (takeEvent s) := by
  suffices freshBoot (takeEvent s) ∨ ∃ r, t = deviceReset r (takeEvent s) by simpa [freshBoot] using this
  obtain rfl | ⟨_, w, i, _, _, h⟩ | ⟨_, w, x, _, _, rfl⟩ | ⟨_, _, _, h⟩ | ⟨_, h⟩ := step_next h
  · exact .inl ht
  · exact .inl ⟨(exec_frame h).mode ▸ ht.1, (exec_frame h).issued ▸ ht.2⟩
  · exact .inl ht
  · exact hostNext_freshBoot h ht
  · exact outsideNext_freshBoot h ht

/-- Before a command is issued the writer is idle, so nothing is pending but the application's own request. -/
theorem unissued_quiet {s : State} (h : Inv s) (hh : ¬ HandedOver s) (hi : s.issued = false) :
    s.cmd = none ∧ s.nvmBusy = false ∧ s.pending = none := by
  have hc : s.cmd = none := by
    by_contra hne
    cases hi.symm.trans (h.issuedMark hne)
  have hq : s.wseq = .idle := wseq_idle h (by simp [hc]) (by simp [hc])
  obtain ⟨_, hb⟩ := idle_quiet h hq hh
  exact ⟨hc, hb, pending_none h hb⟩

/-- Settles O60: only HOST's transfer reaches the application and only a reset leads back to BOOT; with nothing
pending a step has no bytes to write. -/
theorem writtenCodeRunsOnlyAfterAReset : Obligations.WrittenCodeRunsOnlyAfterAReset := by
  refine ⟨fun s t hstep ⟨e, he⟩ hout => ?_, fun s t => step_freshBoot, fun s t h ⟨n, k, hh⟩ hi hstep => ?_⟩
  · obtain hs | ⟨⟨hm, hi⟩, hpc, hmode⟩ := step_app hstep he
    · exact absurd hs (hout e)
    · exact ⟨hm, hi, hpc, hmode⟩
  · obtain ⟨hc, hb, hp⟩ := unissued_quiet h (fun hover => hover n k hh) hi
    have mem := step_memoryNext hstep
    exact ⟨hc, hb, hp, fun a => flashByte_memoryNext mem (by simp [hp]),
      fun a => eeByte_memoryNext mem (by simp [hp])⟩

end Sys2Proof.Proofs.Memories
end

section
/-! SUPPORT. Decoding and encoding: the rows of the opcode map and their OPs, the round trip of command words and of
header bytes, the steps that take a header byte, and the issue of a word (30_encoding.md). -/

namespace Sys2Proof.Proofs.Encoding
open Sys2Proof.Machine
open Sys2Proof.Safety
open Sys2Proof.Proofs.Invariants

/-! ### The fields of a word -/

theorem word_eq_iff {v w : Word} : v = w ↔ opOf v = opOf w ∧ immOf v = immOf w := by
  constructor
  · rintro rfl
    exact ⟨rfl, rfl⟩
  · rintro ⟨hop, himm⟩
    rw [← opOf_append_immOf v, hop, himm, opOf_append_immOf]

@[simp] theorem immOf_setWidth (b : Byte) : immOf (b.setWidth 16) = b := by
  ext i hi
  simp only [immOf, BitVec.getElem_extractLsb', BitVec.getLsbD_setWidth, Nat.zero_add]
  simp [hi, show i < 16 by omega]

/-! ### The rows of the opcode map -/

/-- The OP that a row of the opcode map stands for. -/
def rowOp (r : CmdRow) : Byte := opOf r.pattern

/-- TX.SEND's row asks for its OP alone (R101). -/
theorem sendRow_hits_iff (w : Word) : w &&& 0xFF00#16 = 0x0100#16 ↔ opOf w = 0x01#8 := by
  constructor
  · exact opOf_of_mask
  · intro hop
    rw [← opOf_append_immOf w, hop]
    exact (Laws.Encoding.txSend (immOf w) trivial).1

/-- Every other row asks for its whole pattern. -/
theorem wholeRow_hits_iff (w p : Word) : w &&& 0xFFFF#16 = p ↔ opOf w = opOf p ∧ immOf w = immOf p := by
  have hand : w &&& 0xFFFF#16 = w := BitVec.and_allOnes
  rw [hand, word_eq_iff]

/-- A word hits a row when it has the row's OP and, but for TX.SEND's, `IMM8 = 0` (R101, R103). -/
theorem hits_iff {r : CmdRow} (hr : r ∈ cmdTable) (w : Word) :
    r.hits w = true ↔ opOf w = rowOp r ∧ (rowOp r = 0x01#8 ∨ immOf w = 0x00#8) := by
  simp only [cmdTable, List.mem_cons, List.not_mem_nil, or_false] at hr
  unfold CmdRow.hits
  rw [beq_iff_eq]
  rcases hr with rfl | rfl | rfl | rfl | rfl | rfl | rfl | rfl
  · exact (sendRow_hits_iff w).trans (and_iff_left (.inl rfl)).symm
  all_goals
    refine (wholeRow_hits_iff w _).trans (and_congr_right fun _ => ?_)
    exact (or_iff_right (by decide)).symm

/-- No two rows have the same OP. -/
theorem rowOp_pairwise : cmdTable.Pairwise fun r q => rowOp r ≠ rowOp q := by decide

/-- The rows that a word hits. -/
def hitRows (w : Word) : List CmdRow := cmdTable.filter fun q => q.hits w

theorem opOf_of_mem_hitRows {w : Word} {r : CmdRow} (hr : r ∈ hitRows w) : opOf w = rowOp r := by
  obtain ⟨hmem, hit⟩ := List.mem_filter.mp hr
  exact ((hits_iff hmem w).mp hit).1

/-- No word hits two rows: both would have its OP. -/
theorem hitRows_cases (w : Word) : hitRows w = [] ∨ ∃ r, hitRows w = [r] := by
  have distinct : (hitRows w).Pairwise fun r q => rowOp r ≠ rowOp q := rowOp_pairwise.sublist List.filter_sublist
  match hf : hitRows w with
  | [] => exact .inl rfl
  | [r] => exact .inr ⟨r, rfl⟩
  | r :: q :: rest =>
    rw [hf] at distinct
    have hr : opOf w = rowOp r := opOf_of_mem_hitRows (by simp [hf])
    have hq : opOf w = rowOp q := opOf_of_mem_hitRows (by simp [hf])
    exact absurd (hr.symm.trans hq) (List.rel_of_pairwise_cons distinct (by simp))

/-- The decoder reads the first row that the word hits. -/
theorem find?_hits (w : Word) : cmdTable.find? (fun q => q.hits w) = (hitRows w).head? := List.head?_filter.symm

theorem decodeCmd_of_hitRows_cons {w : Word} {r : CmdRow} {rest : List CmdRow} (h : hitRows w = r :: rest) :
    decodeCmd w = .ok (r.build (immOf w)) := by
  simp [decodeCmd, find?_hits, h]

theorem decodeCmd_of_hitRows_nil {w : Word} (h : hitRows w = []) : ∃ e, decodeCmd w = .error e := by
  simp only [decodeCmd, find?_hits, h, List.head?_nil]
  split
  · exact ⟨_, rfl⟩
  · exact ⟨_, rfl⟩

/-- A word is rejected exactly when it hits no row (R103). -/
theorem decodeCmd_error_iff (w : Word) : (∃ e, decodeCmd w = .error e) ↔ ∀ r ∈ cmdTable, ¬ r.hits w = true := by
  rw [← List.filter_eq_nil_iff]
  refine ⟨fun ⟨e, he⟩ => ?_, decodeCmd_of_hitRows_nil⟩
  rcases hitRows_cases w with hf | ⟨r, hf⟩
  · exact hf
  · cases he.symm.trans (decodeCmd_of_hitRows_cons hf)

/-- Settles O4: no two rows share an OP, so at most one is hit; a row is hit by its OP and, but for TX.SEND's, by
`IMM8 = 0`. -/
theorem decodingIsTotalAndUnambiguous : Obligations.DecodingIsTotalAndUnambiguous := by
  refine ⟨fun w => ?row, fun w => ?rejected⟩
  case row =>
    rcases hitRows_cases w with hf | ⟨r, hf⟩
    · exact .inr ⟨hf, decodeCmd_of_hitRows_nil hf⟩
    · exact .inl ⟨r, hf, decodeCmd_of_hitRows_cons hf⟩
  case rejected =>
    rw [decodeCmd_error_iff]
    show _ ↔ opOf w ∉ cmdTable.map rowOp ∨ _
    constructor
    · intro hnone
      by_cases hop : opOf w ∈ cmdTable.map rowOp
      · obtain ⟨r, hr, hrow⟩ := List.mem_map.mp hop
        have hmiss := mt (hits_iff hr w).mpr (hnone r hr)
        exact .inr (by simpa [hrow] using hmiss)
      · exact .inl hop
    · intro h r hr hit
      obtain ⟨hop, himm⟩ := (hits_iff hr w).mp hit
      rcases h with hout | ⟨hsend, hne⟩
      · exact hout (List.mem_map.mpr ⟨r, hr, hop.symm⟩)
      · exact himm.elim (fun h1 => hsend (hop.trans h1)) hne

/-! ### The round trip -/

/-- A command's word decodes to the command, whatever its operand (R101, R102). -/
theorem decodeCmd_tableWord {i : Instr} (hi : i.space = .command) : decodeCmd (tableWord i) = .ok i := by
  cases i with
  | txSend imm =>
    have hrow : tableWord (.txSend imm) &&& 0xFF00#16 = 0x0100#16 := (Laws.Encoding.txSend imm trivial).1
    have himm : immOf (tableWord (.txSend imm)) = imm := BitVec.extractLsb'_append_eq_right
    simp [decodeCmd, cmdTable, CmdRow.hits, hrow, himm]
  | rxRecv | actArm | actProbe | crcCalc | pktRecv | nvmWrblk | nvmFlag => rfl
  | wireSoh | wireEot | wireNoise => cases hi

/-- A header byte is one of the two markers or noise (R111, R114). -/
theorem decodeWire_cases (b : Byte) :
    b = SOH ∧ decodeWire b = .wireSoh ∨ b = EOT ∧ decodeWire b = .wireEot ∨
    (b ≠ SOH ∧ b ≠ EOT) ∧ decodeWire b = .wireNoise b := by
  unfold decodeWire
  split
  · exact .inl ⟨by assumption, rfl⟩
  · split
    · exact .inr (.inl ⟨by assumption, rfl⟩)
    · exact .inr (.inr ⟨⟨by assumption, by assumption⟩, rfl⟩)

/-- A header byte decodes to the wire instruction whose byte it is (R111, R114). -/
theorem decodeWire_immOf_tableWord {i : Instr} (hi : i.space = .wire) (hwf : i.WellFormed) :
    decodeWire (immOf (tableWord i)) = i := by
  cases i with
  | wireSoh | wireEot => rfl
  | wireNoise b =>
    obtain ⟨hsoh, heot⟩ := hwf
    simp [tableWord, decodeWire, hsoh, heot]
  | txSend | rxRecv | actArm | actProbe | crcCalc | pktRecv | nvmWrblk | nvmFlag => cases hi

theorem wellFormed_of_command {i : Instr} (hi : i.space = .command) : i.WellFormed := by
  cases i with
  | wireSoh | wireEot | wireNoise => cases hi
  | txSend | rxRecv | actArm | actProbe | crcCalc | pktRecv | nvmWrblk | nvmFlag => trivial

theorem decode_encode {i : Instr} (hwf : i.WellFormed) (rest : List Byte) :
    decode i.space (encode i ++ rest) = .ok (i, rest) := by
  unfold encode
  cases hi : i.space with
  | command =>
    show (decodeCmd (opOf (tableWord i) ++ immOf (tableWord i))).map _ = _
    rw [opOf_append_immOf, decodeCmd_tableWord hi]
    rfl
  | wire =>
    show Except.ok (decodeWire (immOf (tableWord i)), rest) = _
    rw [decodeWire_immOf_tableWord hi hwf]

/-- What is read from an instruction's bits is what is decoded from its bytes (R100, R110). -/
theorem decodeTableWord_of_decode {i j : Instr} {rest : List Byte} (h : decode i.space (encode i) = .ok (j, rest)) :
    decodeTableWord i.nbits (tableWord i).toNat = some j := by
  cases hi : i.space with
  | command | wire =>
    simp only [encode, hi] at h
    simp [decodeTableWord, Instr.nbits, hi, h]

/-- Settles O2, by the two spaces. -/
theorem decodeOfEncode : Obligations.DecodeOfEncode := by
  intro i rest hwf
  have whole : decode i.space (encode i) = .ok (i, []) := by simpa using decode_encode hwf []
  exact ⟨decode_encode hwf rest, decodeTableWord_of_decode whole⟩

/-- Settles O3: a word that decodes has hit its own row, and a header byte is one of three kinds. -/
theorem encodeOfDecode : Obligations.EncodeOfDecode := by
  refine ⟨fun w i h => ?_, fun b => ?_⟩
  · have hspace := space_of_decodeCmd h
    exact ⟨tableWord_of_decodeCmd h, hspace, wellFormed_of_command hspace⟩
  · obtain ⟨rfl, h⟩ | ⟨rfl, h⟩ | ⟨hne, h⟩ := decodeWire_cases b <;> rw [h]
    · exact ⟨rfl, rfl, trivial⟩
    · exact ⟨rfl, rfl, trivial⟩
    · exact ⟨congrArg (fun x => [x]) (immOf_setWidth b), rfl, hne⟩

/-- Settles O1: each word and byte is closed, and the decoder computes. -/
theorem writtenWordsDecode : Obligations.WrittenWordsDecode := by
  unfold Obligations.WrittenWordsDecode
  decide

/-! ### A header byte as an instruction -/

/-- In WAIT_HEADER PKT.RECV does what the kind of the front byte says (R167). -/
theorem exec_decodeWire_waitHeader {s : State} {b : Byte} {q : List Byte} (hq : s.rxq = b :: q)
    (hf : s.fsm = .waitHeader) : exec (decodeWire b) s = exec .pktRecv s := by
  have hrecv : exec .pktRecv s =
      if b = SOH then execWireSoh s else if b = EOT then execWireEot s else execWireNoise b s := by
    simp only [exec, execPktRecv, hf, waitHeaderStep, hq]
  rw [hrecv]
  obtain ⟨rfl, h⟩ | ⟨rfl, h⟩ | ⟨⟨hsoh, heot⟩, h⟩ := decodeWire_cases b <;> rw [h]
  · rfl
  · rfl
  · rw [if_neg hsoh, if_neg heot, exec]

/-- Outside WAIT_HEADER the kind of a byte does not matter (R114). -/
theorem exec_decodeWire_data {s : State} (b : Byte) (hf : s.fsm ≠ .waitHeader) :
    exec (decodeWire b) s = wireData b s := by
  obtain ⟨rfl, h⟩ | ⟨rfl, h⟩ | ⟨_, h⟩ := decodeWire_cases b <;> rw [h] <;> exact if_neg hf

/-- Settles O22: in WAIT_HEADER both look at the kind of the front byte, in a reading state both take it as data. -/
theorem headerByteIsPktRecvsOwnStep : Obligations.HeaderByteIsPktRecvsOwnStep := by
  intro s b q hq hf
  simp only [List.mem_cons, List.not_mem_nil, or_false] at hf
  rcases hf with hf | hf
  · exact exec_decodeWire_waitHeader hq hf
  · have hne : s.fsm ≠ .waitHeader := by rcases hf with hf | hf | hf | hf | hf <;> simp [hf]
    have hread : readStep s = packetByte b { s with rxq := q } := by simp [readStep, recvByte_cons hq]
    rw [exec_decodeWire_data b hne]
    rcases hf with hf | hf | hf | hf | hf <;>
      simp only [wireData, exec, execPktRecv, hf, takeByte_front _ hq, hread]

/-! ### The issue of a word -/

theorem issueStep_unblocked {s : State} {n k : Nat} (w : Word) (hc : s.cmd = none) (hh : s.hpc = .stmt n k) :
    issueStep w s = .next (issue w s.hpc s) := by
  have hb : s.busy = false := busy_eq_false.mpr hc
  simp [issueStep, hb, hh]

/-- Settles O6: HOST is not blocked and at its program, so its step is `issue`, which looks at what the word decodes
to. -/
theorem issueSetsTheCommand : Obligations.IssueSetsTheCommand := by
  intro s rest w n k hs hc hh
  have hstep : step s = .next (issue w s.hpc { s with script := rest }) :=
    (step_scheduled hs).trans (issueStep_unblocked w hc hh)
  refine ⟨fun i hd => ?_, fun e hd => ?_⟩
  · rw [hstep, issue, hd]
  · rw [hstep, issue, hd, raiseFault]

end Sys2Proof.Proofs.Encoding
end

section
/-! SUPPORT. The Byte Transport: the step of each command, the steps of LINE, and what the commands leave unchanged
(40_transport.md). -/

namespace Sys2Proof.Proofs.Transport
open Sys2Proof.Machine
open Sys2Proof.Safety
open Sys2Proof.Proofs.Encoding

/-! ### TX.SEND and RX.RECV -/

/-- The word as R131 writes it is the word of the opcode map. -/
theorem tableWord_txSend (b : Byte) : tableWord (.txSend b) = 0x0100 ||| b.setWidth 16 := rfl

theorem exec_txSend_empty {s : State} (b : Byte) (h : s.txh = none) :
    exec (.txSend b) s = .next { s with txh := some b, cmd := none } := by
  simp only [exec, execTxSend, sendByte_empty b h, endCmd]

theorem exec_txSend_full {s : State} {x : Byte} (b : Byte) (h : s.txh = some x) : exec (.txSend b) s = .next s := by
  simp only [exec, execTxSend, sendByte_full b h]

theorem exec_rxRecv_front {s : State} {b : Byte} {q : List Byte} (h : s.rxq = b :: q) :
    exec .rxRecv s = .next { s with rxq := q, res := b.setWidth 16, resW := true, cmd := none } := by
  simp only [exec, execRxRecv, recvByte_cons h, setRes, endCmd]

theorem exec_rxRecv_empty {s : State} (h : s.rxq = []) : exec .rxRecv s = .next s := by
  simp only [exec, execRxRecv, recvByte_nil h]

/-- Settles O11: the word is TX.SEND's in the opcode map, and `SendByte` answers by `TXH`. -/
theorem txSendWritesTxh : Obligations.TxSendWritesTxh := by
  intro s b
  have hdecode : decodeCmd (tableWord (.txSend b)) = .ok (.txSend b) := decodeCmd_tableWord rfl
  rw [tableWord_txSend] at hdecode
  exact ⟨hdecode, exec_txSend_empty b, fun _ => exec_txSend_full b⟩

/-- Settles O12: `RecvByte` answers by the front of `RXQ`. -/
theorem rxRecvTakesTheFront : Obligations.RxRecvTakesTheFront :=
  ⟨decodeCmd_tableWord (i := .rxRecv) rfl, fun _ => ⟨fun _ _ => exec_rxRecv_front, exec_rxRecv_empty⟩⟩

/-! ### The latch -/

theorem exec_actArm (s : State) : exec .actArm s = .next { s with armed := true, act := false, cmd := none } := rfl

theorem exec_actProbe (s : State) :
    exec .actProbe s = .next { s with res := if s.act then 1 else 0, resW := true, cmd := none } := rfl

/-- Settles O13: neither command has a condition. -/
theorem latchArmAndProbe : Obligations.LatchArmAndProbe :=
  ⟨decodeCmd_tableWord (i := .actArm) rfl, decodeCmd_tableWord (i := .actProbe) rfl,
    fun s => ⟨exec_actArm s, exec_actProbe s⟩⟩

/-! ### LINE -/

theorem txDrain_full {s : State} {b : Byte} (h : s.txh = some b) :
    txDrain s = { s with txlog := s.txlog ++ [b], txh := none } := by
  simp only [txDrain, h]

theorem txDrain_empty {s : State} (h : s.txh = none) : txDrain s = s := by
  simp only [txDrain, h]

/-- Settles O14: a scheduled step of LINE looks at neither `CMD` nor BLOCK, and a drain answers by `TXH`. -/
theorem lineSteps : Obligations.LineSteps := by
  intro s rest
  refine ⟨fun hs => ?edge, fun b hs => ?byte, fun b hs hx => ?full, fun hs hx => ?empty⟩
  case edge => rw [step_scheduled hs, agentStep, rxEdge, latchEdge]
  case byte => rw [step_scheduled hs, agentStep, rxByte, latchEdge]
  case full => exact (step_scheduled hs).trans (congrArg Host.Outcome.next (txDrain_full hx))
  case empty => exact (step_scheduled hs).trans (congrArg Host.Outcome.next (txDrain_empty hx))

/-! ### What the commands leave unchanged -/

/-- Settles O15: no next state of a transport command differs from the state before in any other field. -/
theorem transportFrame : Obligations.TransportFrame := by
  intro s t
  refine ⟨fun b h => ?send, fun h => ?recv, fun h => ?arm, fun h => ?probe⟩
  case send =>
    cases execTxSend_next h with
    | holdSend => rfl
    | send => rfl
  case recv =>
    cases execRxRecv_next h with
    | holdReceive => rfl
    | receive => rfl
  case arm =>
    cases execActArm_next h
    rfl
  case probe =>
    cases execActProbe_next h
    rfl

end Sys2Proof.Proofs.Transport
end

section
/-! SUPPORT. The Checksum Engine: the CRC is linear over XOR and no step of it loses information, whence the laws of
R154; and the steps of CRC.CALC (41_checksum.md). -/

namespace Sys2Proof.Proofs.Checksum
open Sys2Proof.Machine
open Sys2Proof.Proofs.Encoding

/-! ### The eight rounds -/

/-- `Nat.repeat` is the library's iterate, so that the library's facts on iterates speak of the rounds. -/
theorem repeat_eq_iterate {α : Type} (f : α → α) (n : Nat) : Nat.repeat f n = f^[n] := by
  funext a
  induction n with
  | zero => rfl
  | succ n ih => rw [Nat.repeat, ih, Function.iterate_succ_apply']

/-- Both the tested bit and the shift are linear, so a round is. -/
theorem crcRound_xor (r q : Word) : crcRound (r ^^^ q) = crcRound r ^^^ crcRound q := by
  unfold crcRound
  rw [BitVec.msb_xor, BitVec.shiftLeft_xor_distrib]
  cases r.msb <;> cases q.msb
  case false.false => rfl
  case false.true => exact BitVec.xor_assoc _ _ _
  case true.false =>
    show r <<< 1 ^^^ q <<< 1 ^^^ crcPoly = (r <<< 1 ^^^ crcPoly) ^^^ q <<< 1
    ac_rfl
  case true.true =>
    calc r <<< 1 ^^^ q <<< 1
        = (r <<< 1 ^^^ q <<< 1) ^^^ (crcPoly ^^^ crcPoly) := by rw [BitVec.xor_self, BitVec.xor_zero]
      _ = (r <<< 1 ^^^ crcPoly) ^^^ (q <<< 1 ^^^ crcPoly) := by ac_rfl

/-- The polynomial sets bit 0, which the shift clears, so a zero result came of no XOR: the register was zero. -/
theorem eq_zero_of_crcRound_eq_zero {r : Word} (h : crcRound r = 0) : r = 0 := by
  unfold crcRound at h
  split at h
  · have hbit : ((r <<< 1) ^^^ crcPoly).getLsbD 0 = true := by simp [crcPoly]
    simp [h] at hbit
  · rename_i hmsb
    rw [BitVec.msb_eq_decide, decide_eq_true_iff] at hmsb
    bv_omega

theorem crcRound_injective : Function.Injective crcRound := by
  intro r q h
  have hz : crcRound (r ^^^ q) = 0 := by rw [crcRound_xor, h]; exact BitVec.xor_self
  exact BitVec.xor_eq_zero_iff.mp (eq_zero_of_crcRound_eq_zero hz)

/-! ### One byte -/

theorem crcByte_eq_iterate (r : Word) (d : Byte) : crcByte r d = crcRound^[8] (r ^^^ (d ++ 0x00#8)) := by
  rw [crcByte, repeat_eq_iterate]

theorem crcByte_xor (r q : Word) (d e : Byte) : crcByte (r ^^^ q) (d ^^^ e) = crcByte r d ^^^ crcByte q e := by
  have hrounds : Function.Semiconj₂ crcRound^[8] (· ^^^ ·) (· ^^^ ·) :=
    Function.Semiconj₂.iterate crcRound_xor 8
  have hbytes : (d ^^^ e) ++ 0x00#8 = (d ++ 0x00#8) ^^^ (e ++ 0x00#8) := by rw [BitVec.xor_append, BitVec.xor_self]
  calc crcByte (r ^^^ q) (d ^^^ e)
      = crcRound^[8] ((r ^^^ (d ++ 0x00#8)) ^^^ (q ^^^ (e ++ 0x00#8))) := by
        rw [crcByte_eq_iterate, hbytes]
        congr 1
        ac_rfl
    _ = crcByte r d ^^^ crcByte q e := by rw [hrounds, crcByte_eq_iterate, crcByte_eq_iterate]

/-- From a zero register only the byte counts. -/
theorem crcByte_zero_left (d : Byte) : crcByte 0 d = Nat.repeat crcRound 8 (d ++ 0x00#8) :=
  congrArg (Nat.repeat crcRound 8) BitVec.zero_xor

theorem crcByte_zero_zero : crcByte 0 0 = 0 := rfl

theorem crcByte_left_injective (d : Byte) : Function.Injective (crcByte · d) := by
  intro r q h
  simp only [crcByte_eq_iterate] at h
  exact (BitVec.xor_left_inj _).mp (crcRound_injective.iterate 8 h)

theorem crcByte_right_injective (r : Word) : Function.Injective (crcByte r) := by
  intro d e h
  simp only [crcByte_eq_iterate] at h
  have hwords : d ++ 0x00#8 = e ++ 0x00#8 := (BitVec.xor_right_inj r).mp (crcRound_injective.iterate 8 h)
  exact (BitVec.append_left_inj _).mp hwords

/-! ### A sequence of bytes -/

theorem crcFrom_cons (r : Word) (d : Byte) (ds : List Byte) :
    crcFrom r (d :: ds) = crcFrom (crcByte r d) ds := rfl

theorem crcFrom_append (r : Word) (ds es : List Byte) : crcFrom r (ds ++ es) = crcFrom (crcFrom r ds) es :=
  List.foldl_append

theorem crcFrom_xor (r q : Word) {ds es : List Byte} (hlen : ds.length = es.length) :
    crcFrom (r ^^^ q) (List.zipWith (· ^^^ ·) ds es) = crcFrom r ds ^^^ crcFrom q es := by
  induction ds generalizing r q es with
  | nil =>
    obtain rfl := List.length_eq_zero_iff.mp hlen.symm
    rfl
  | cons d ds ih =>
    cases es with
    | nil => cases hlen
    | cons e es =>
      rw [List.zipWith_cons_cons, crcFrom_cons, crcByte_xor]
      exact ih (crcByte r d) (crcByte q e) (Nat.succ.inj hlen)

theorem crcFrom_injective (ds : List Byte) : Function.Injective (crcFrom · ds) := by
  induction ds with
  | nil => exact Function.injective_id
  | cons d ds ih => exact ih.comp (crcByte_left_injective d)

/-- A changed byte gives another register, and no later byte undoes that. -/
theorem crcFrom_set_ne (r : Word) {ds : List Byte} {i : Nat} (hi : i < ds.length) {d : Byte} (hd : d ≠ ds[i]) :
    crcFrom r (ds.set i d) ≠ crcFrom r ds := by
  induction ds generalizing r i with
  | nil => exact absurd hi (Nat.not_lt_zero i)
  | cons e ds ih =>
    cases i with
    | zero => exact (crcFrom_injective ds).ne ((crcByte_right_injective r).ne hd)
    | succ i => exact ih (crcByte r e) (Nat.lt_of_succ_lt_succ hi) hd

theorem crcFrom_zeros (n : Nat) : crcFrom 0 (List.replicate n 0) = 0 := by
  induction n with
  | zero => rfl
  | succ n ih => rw [List.replicate_succ, crcFrom_cons, crcByte_zero_zero, ih]

theorem crcFrom_zeros_last (n : Nat) (b : Byte) : crcFrom 0 ((List.replicate (n + 1) 0).set n b) = crcByte 0 b := by
  induction n with
  | zero => rfl
  | succ n ih => rw [List.replicate_succ, List.set_cons_succ, crcFrom_cons, crcByte_zero_zero, ih]

/-! ### The laws of R154 -/

/-- Settles O18: the empty sequence and every byte keep the linearity, and the initial register is zero. -/
theorem crcIsLinear : Obligations.CrcIsLinear := by
  intro a b
  have hlen : a.toList.length = b.toList.length := by simp
  rw [crc16, Vector.toList_zipWith]
  exact crcFrom_xor crcInit crcInit hlen

theorem byte_xor_bit_ne (d : Byte) (k : Fin 8) : d ^^^ (1#8 <<< k.val) ≠ d := by
  have hbit : 1#8 <<< k.val ≠ 0#8 := by revert k; decide
  simpa using hbit

/-- Settles O19: a flipped bit changes its byte, and a changed byte changes the result. -/
theorem crcDetectsEveryBitFlip : Obligations.CrcDetectsEveryBitFlip := by
  intro d i k
  rw [crc16, Vector.toList_set]
  exact crcFrom_set_ne crcInit (by simp) (byte_xor_bit_ne d[i] k)

theorem crc16_zeros : crc16 (Vector.replicate 128 0) = 0 := by
  rw [crc16, Vector.toList_replicate]
  exact crcFrom_zeros 128

theorem crc16_last (b : Byte) :
    crc16 ((Vector.replicate 128 0).set 127 b (by omega)) = Nat.repeat crcRound 8 (b ++ 0x00#8) := by
  rw [crc16, Vector.toList_set, Vector.toList_replicate]
  exact (crcFrom_zeros_last 127 b).trans (crcByte_zero_left b)

/-- The rounds of R155. -/
theorem crcRounds_of_one : Nat.repeat crcRound 8 (0x01#8 ++ 0x00#8) = 0x1021 := rfl

/-! The 127 zero bytes after the byte 0x01 of the golden vector, in four runs each short enough for the kernel. -/

theorem crcFrom_zeros_1021 : crcFrom 0x1021 (List.replicate 32 0) = 0x8DDC := by decide +kernel
theorem crcFrom_zeros_8DDC : crcFrom 0x8DDC (List.replicate 32 0) = 0x78B3 := by decide +kernel
theorem crcFrom_zeros_78B3 : crcFrom 0x78B3 (List.replicate 32 0) = 0x9E3A := by decide +kernel
theorem crcFrom_zeros_9E3A : crcFrom 0x9E3A (List.replicate 31 0) = 0x9295 := by decide +kernel

/-- The golden vector of R155. -/
theorem crc16_golden : crc16 ((Vector.replicate 128 0).set 0 0x01 (by omega)) = 0x9295 := by
  have hruns : (List.replicate 128 (0 : Byte)).set 0 0x01 = 0x01 :: (List.replicate 32 0 ++ (List.replicate 32 0 ++
      (List.replicate 32 0 ++ List.replicate 31 0))) := rfl
  have hfirst : crcByte crcInit 0x01 = 0x1021 := (crcByte_zero_left 0x01).trans crcRounds_of_one
  rw [crc16, Vector.toList_set, Vector.toList_replicate, hruns, crcFrom_cons, hfirst, crcFrom_append, crcFrom_append,
    crcFrom_append, crcFrom_zeros_1021, crcFrom_zeros_8DDC, crcFrom_zeros_78B3, crcFrom_zeros_9E3A]

/-- Settles O17: a zero byte keeps a zero register, and one byte's rounds fix the polynomial. -/
theorem crcOfZeroBytes : Obligations.CrcOfZeroBytes :=
  ⟨crcFrom_zeros, crc16_zeros, crc16_last, (crc16_last 0x01).trans crcRounds_of_one, crc16_golden⟩

/-! ### CRC.CALC -/

theorem exec_crcCalc_valid {s : State} (h : s.pbv = true) :
    exec .crcCalc s = .next { s with crcreg := crc16 s.pb, res := crc16 s.pb, resW := true, cmd := none } := by
  simp only [exec, execCrcCalc, h, if_true, endCmd, setRes, runCrc]

theorem exec_crcCalc_invalid {s : State} (h : s.pbv = false) :
    exec .crcCalc s = .next { s with fault := .pbInvalid, faultRec := .word 0x1000 } := by
  simp only [exec, execCrcCalc, h, Bool.false_eq_true, if_false, raiseFault, tableWord]

/-- VALIDATE's accept (R173, R174). -/
theorem exec_pktRecv_accept {s : State} (hf : s.fsm = .validate) (hc : crc16 s.pb = s.crcrx)
    (hb : s.blk.toNat + s.blkc.toNat = 255) :
    exec .pktRecv s = .next { s with
      crcreg := crc16 s.pb, pbv := true, fsm := .idle, res := resBlock, resW := true, cmd := none } := by
  have hok : (crcOk s && blkOk s) = true := by simp [crcOk, blkOk, hc, hb]
  simp only [exec, execPktRecv, hf, validateStep, hok, if_true, accept, endCmd, setRes, runCrc]

/-- Settles O16: `execCrcCalc` tests `PBV`, which an accept sets, with the checksum compared and the block kept. -/
theorem crcCalcComputesOrFaults : Obligations.CrcCalcComputesOrFaults := by
  refine ⟨decodeCmd_tableWord (i := .crcCalc) rfl, fun s => ⟨exec_crcCalc_valid, exec_crcCalc_invalid, ?_⟩⟩
  intro hf hc hb
  exact ⟨_, _, exec_pktRecv_accept hf hc hb, exec_crcCalc_valid rfl, hc⟩

end Sys2Proof.Proofs.Checksum
end

section
/-! SUPPORT. The Packet Receiver: what PKT.RECV's step does in each state of the framer, what the checks of VALIDATE
miss, and what PKT.RECV and the header bytes leave unchanged (42_framer.md). -/

namespace Sys2Proof.Proofs.Framer
open Sys2Proof.Machine
open Sys2Proof.Proofs.Encoding
open Sys2Proof.Proofs.Checksum

/-! ### The first step and WAIT_HEADER -/

theorem exec_pktRecv_idle {s : State} (hf : s.fsm = .idle) :
    exec .pktRecv s = .next { s with pbv := false, idx := 0, fsm := .waitHeader } := by
  simp only [exec, execPktRecv, hf]

/-- Settles O20. -/
theorem pktRecvOpensTheFramer : Obligations.PktRecvOpensTheFramer := fun _ => exec_pktRecv_idle

theorem exec_pktRecv_noHeader {s : State} (hf : s.fsm = .waitHeader) (hq : s.rxq = []) :
    exec .pktRecv s = .next s := by
  simp only [exec, execPktRecv, hf, waitHeaderStep, hq]

theorem exec_wireSoh_front {s : State} {q : List Byte} (hf : s.fsm = .waitHeader) (hq : s.rxq = SOH :: q) :
    exec .wireSoh s = .next { s with rxq := q, fsm := .readBlk } := by
  simp only [exec, execWireSoh, if_pos hf, takeByte_front _ hq, startOfBlock]

theorem exec_wireEot_front {s : State} {q : List Byte} (hf : s.fsm = .waitHeader) (hq : s.rxq = EOT :: q) :
    exec .wireEot s = .next { s with rxq := q, fsm := .idle, res := 2, resW := true, cmd := none } := by
  simp only [exec, execWireEot, if_pos hf, takeByte_front _ hq, endOfTransmission, setRes, endCmd, resEot]

theorem exec_wireNoise_front {s : State} {b : Byte} {q : List Byte} (hf : s.fsm = .waitHeader)
    (hq : s.rxq = b :: q) : exec (.wireNoise b) s = .next { s with rxq := q } := by
  simp only [exec, execWireNoise, if_pos hf, takeByte_front _ hq]
  rw [← hf]

/-- Settles O21: the three kinds of byte, each at the front, and the hold without one. -/
theorem headerBytesInWaitHeader : Obligations.HeaderBytesInWaitHeader := fun _ hf =>
  ⟨exec_pktRecv_noHeader hf, fun _ => exec_wireSoh_front hf, fun _ => exec_wireEot_front hf,
    fun _ _ hq _ => exec_wireNoise_front hf hq⟩

/-! ### The reading states -/

/-- The states in which the framer takes any byte as data (R114, R170 to R172). -/
abbrev readingStates : List Fsm := [.readBlk, .readBlkc, .readPayload, .readCrcHi, .readCrcLo]

theorem exec_pktRecv_reading {s : State} (hf : s.fsm ∈ readingStates) : exec .pktRecv s = readStep s := by
  simp only [readingStates, List.mem_cons, List.not_mem_nil, or_false] at hf
  rcases hf with hf | hf | hf | hf | hf <;> simp only [exec, execPktRecv, hf]

theorem exec_pktRecv_noData {s : State} (hf : s.fsm ∈ readingStates) (hq : s.rxq = []) :
    exec .pktRecv s = .next s := by
  simp only [exec_pktRecv_reading hf, readStep, recvByte_nil hq]

theorem exec_pktRecv_data {s : State} {b : Byte} {q : List Byte} (hf : s.fsm ∈ readingStates)
    (hq : s.rxq = b :: q) : exec .pktRecv s = packetByte b { s with rxq := q } := by
  simp only [exec_pktRecv_reading hf, readStep, recvByte_cons hq]

theorem setIfInBounds_of_lt {α : Type} {n i : Nat} (v : Vector α n) (b : α) (hi : i < n) :
    v.setIfInBounds i b = v.set i b hi := by
  ext j hj
  simp [Vector.getElem_set, Vector.getElem_setIfInBounds]

section
variable {s : State} {b : Byte} {q : List Byte} (hq : s.rxq = b :: q)
include hq

theorem exec_pktRecv_blk (hf : s.fsm = .readBlk) :
    exec .pktRecv s = .next { s with rxq := q, blk := b, blkW := true, fsm := .readBlkc } := by
  rw [exec_pktRecv_data (by simp [hf]) hq]
  simp only [packetByte, hf]

theorem exec_pktRecv_blkc (hf : s.fsm = .readBlkc) :
    exec .pktRecv s = .next { s with rxq := q, blkc := b, blkcW := true, idx := 0, fsm := .readPayload } := by
  rw [exec_pktRecv_data (by simp [hf]) hq]
  simp only [packetByte, hf]

theorem exec_pktRecv_payload (hf : s.fsm = .readPayload) (hi : s.idx < 128) :
    exec .pktRecv s = .next { s with
      rxq := q, pb := s.pb.set s.idx b hi, idx := s.idx + 1,
      fsm := if s.idx + 1 = 128 then .readCrcHi else .readPayload } := by
  rw [exec_pktRecv_data (by simp [hf]) hq]
  simp only [packetByte, hf, storePayload, if_pos hi, setIfInBounds_of_lt _ b hi]

theorem exec_pktRecv_crcHi (hf : s.fsm = .readCrcHi) :
    exec .pktRecv s = .next { s with rxq := q, crcrx := b ++ 0x00#8, crcrxW := true, fsm := .readCrcLo } := by
  rw [exec_pktRecv_data (by simp [hf]) hq]
  simp only [packetByte, hf]

theorem exec_pktRecv_crcLo (hf : s.fsm = .readCrcLo) :
    exec .pktRecv s = .next { s with
      rxq := q, crcrx := s.crcrx.extractLsb' 8 8 ++ b, crcrxW := true, fsm := .validate } := by
  rw [exec_pktRecv_data (by simp [hf]) hq]
  simp only [packetByte, hf]

end

/-- Settles O23: one rule per reading state, and the hold they share. -/
theorem readingStatesStoreTheByte : Obligations.ReadingStatesStoreTheByte := fun _ =>
  ⟨fun hq hf => exec_pktRecv_noData hf hq, fun _ _ hq =>
    ⟨exec_pktRecv_blk hq, exec_pktRecv_blkc hq, fun hi hf => exec_pktRecv_payload hq hf hi, exec_pktRecv_crcHi hq,
      exec_pktRecv_crcLo hq⟩⟩

/-! ### VALIDATE and SEND_NAK -/

/-- VALIDATE's reject (R173, R175); its accept is `exec_pktRecv_accept`. -/
theorem exec_pktRecv_reject {s : State} (hf : s.fsm = .validate)
    (h : ¬ (crc16 s.pb = s.crcrx ∧ s.blk.toNat + s.blkc.toNat = 255)) :
    exec .pktRecv s = .next { s with crcreg := crc16 s.pb, fsm := .sendNak } := by
  have hbad : ¬ (crcOk s && blkOk s) = true := by simpa [crcOk, blkOk] using h
  simp only [exec, execPktRecv, hf, validateStep, if_neg hbad, runCrc]

/-- The second block byte makes the sum 255 exactly as the complement of the first (R113). -/
theorem sum_eq_255_iff (b c : Byte) : b.toNat + c.toNat = 255 ↔ c = ~~~b := by
  rw [← BitVec.toNat_inj, BitVec.toNat_not]
  omega

/-- Settles O24: the two outcomes of the checks, and the arithmetic of the block pair. -/
theorem validateAcceptsExactlyTheGoodPacket : Obligations.ValidateAcceptsExactlyTheGoodPacket := fun s hf =>
  ⟨fun ⟨hc, hb⟩ => exec_pktRecv_accept hf hc hb, exec_pktRecv_reject hf, sum_eq_255_iff s.blk s.blkc⟩

theorem exec_pktRecv_nak {s : State} (hf : s.fsm = .sendNak) (ht : s.txh = none) :
    exec .pktRecv s = .next { s with txh := some NAK, fsm := .waitHeader } := by
  simp only [exec, execPktRecv, hf, sendNakStep, sendByte_empty NAK ht]

theorem exec_pktRecv_nakHold {s : State} {x : Byte} (hf : s.fsm = .sendNak) (ht : s.txh = some x) :
    exec .pktRecv s = .next s := by
  simp only [exec, execPktRecv, hf, sendNakStep, sendByte_full NAK ht]

/-- Settles O25: SEND_NAK's byte goes as `TXH` says. -/
theorem rejectSendsOneNak : Obligations.RejectSendsOneNak := fun _ hf =>
  ⟨exec_pktRecv_nak hf, fun _ => exec_pktRecv_nakHold hf⟩

/-! ### One flipped bit -/

/-- A failed check is a step to SEND_NAK with the command in progress and `PBV` as it was. -/
theorem exec_pktRecv_toSendNak {s : State} (hf : s.fsm = .validate)
    (h : ¬ (crc16 s.pb = s.crcrx ∧ s.blk.toNat + s.blkc.toNat = 255)) :
    ∃ t, exec .pktRecv s = .next t ∧ t.fsm = .sendNak ∧ t.cmd = s.cmd ∧ t.pbv = s.pbv :=
  ⟨_, exec_pktRecv_reject hf h, rfl, rfl, rfl⟩

theorem word_xor_bit_ne (w : Word) (k : Fin 16) : w ^^^ (1#16 <<< k.val) ≠ w := by
  have hbit : 1#16 <<< k.val ≠ 0#16 := by revert k; decide
  simpa using hbit

/-- For one byte of the block pair only one other makes the sum 255. -/
theorem eq_of_sum_eq_255 {b b' c : Byte} (h : b.toNat + c.toNat = 255) (h' : b'.toNat + c.toNat = 255) : b' = b :=
  BitVec.eq_of_toNat_eq (by omega)

/-- Settles O29: the engine detects a flipped payload bit, a flipped checksum is another word, and a flipped byte of
the block pair is not the other's complement. -/
theorem singleBitCorruptionIsRejected : Obligations.SingleBitCorruptionIsRejected := by
  intro s hf hc hb
  refine ⟨fun i k => ?payload, fun k => ?checksum, fun k => ?blk, fun k => ?blkc⟩
  case payload => exact exec_pktRecv_toSendNak hf fun h => crcDetectsEveryBitFlip s.pb i k (h.1.trans hc.symm)
  case checksum => exact exec_pktRecv_toSendNak hf fun h => word_xor_bit_ne s.crcrx k (h.1.symm.trans hc)
  case blk => exact exec_pktRecv_toSendNak hf fun h => byte_xor_bit_ne s.blk k (eq_of_sum_eq_255 hb h.2)
  case blkc =>
    exact exec_pktRecv_toSendNak hf fun h =>
      byte_xor_bit_ne s.blkc k (eq_of_sum_eq_255 ((Nat.add_comm _ _).trans hb) ((Nat.add_comm _ _).trans h.2))

/-! ### What PKT.RECV and the header bytes leave unchanged -/

theorem framerNext_of_exec {i : Instr} {s t : State} (hi : i = .pktRecv ∨ i.space = .wire)
    (h : exec i s = .next t) : FramerNext s t := by
  cases i with
  | pktRecv => exact execPktRecv_next h
  | wireSoh => exact execWireSoh_next h
  | wireEot => exact execWireEot_next h
  | wireNoise b => exact execWireNoise_next h
  | txSend | rxRecv | actArm | actProbe | crcCalc | nvmWrblk | nvmFlag => rcases hi with hi | hi <;> cases hi

/-- Settles O30: no next state of the framer differs from the state before in any other field. -/
theorem framerFrame : Obligations.FramerFrame := by
  intro i s t hi h
  cases framerNext_of_exec hi h with
  | data b q _ _ h => cases h <;> rfl
  | _ => rfl

end Sys2Proof.Proofs.Framer
end

section
/-! SUPPORT. Whole runs of PKT.RECV: BLOCK's steps over a queue that holds noise and a packet or an end of
transmission, joined rule by rule (42_framer.md rule R177). -/

namespace Sys2Proof.Proofs.Framer
open Sys2Proof.Machine
open Sys2Proof.Safety
open Sys2Proof.Proofs.Registers
open Sys2Proof.Proofs.Checksum

/-! ### Runs of BLOCK -/

/-- BLOCK's next `k` steps, none of another agent between them, take `s` to `t`, whatever is scheduled after them. The
script of either state does not count. -/
def BlockRun (k : Nat) (s t : State) : Prop :=
  ∀ rest, core.run k { s with script := blocks k ++ rest } = .next { t with script := rest }

section
variable {M : Host.Core}

theorem run_succ (k : Nat) {s t : M.State} (h : M.step s = .next t) : M.run (k + 1) s = M.run k t := by
  rw [Host.Core.run, h]

/-- A run that goes on has stopped nowhere. -/
theorem step_of_run_succ {k : Nat} {s t : M.State} (h : M.run (k + 1) s = .next t) : ∃ u, M.step s = .next u := by
  rw [Host.Core.run] at h
  split at h
  · exact ⟨_, by assumption⟩
  · cases h
  · cases h

theorem run_add {j : Nat} (k : Nat) {s t : M.State} (h : M.run j s = .next t) : M.run (j + k) s = M.run k t := by
  induction j generalizing s with
  | zero =>
    cases h
    rw [Nat.zero_add]
  | succ j ih =>
    obtain ⟨u, hu⟩ := step_of_run_succ h
    rw [run_succ j hu] at h
    rw [Nat.succ_add, run_succ (j + k) hu, ih h]

end

theorem BlockRun.zero (s : State) : BlockRun 0 s s := fun _ => rfl

theorem BlockRun.trans {j k : Nat} {s t u : State} (h : BlockRun j s t) (h' : BlockRun k t u) :
    BlockRun (j + k) s u := by
  intro rest
  have hblocks : blocks (j + k) ++ rest = blocks j ++ (blocks k ++ rest) := by
    rw [← List.append_assoc, blocks, blocks, blocks, List.replicate_append_replicate]
  rw [hblocks, run_add k (h _), h' rest]

/-- A run of as many steps as are scheduled, read off. -/
theorem BlockRun.run {j k : Nat} {s t : State} (h : BlockRun k s t) (hj : j = k) {rest : List Event}
    (hs : s.script = blocks j ++ rest) : core.run j s = .next { t with script := rest } := by
  subst hj
  rw [← h rest, ← hs]

/-- BLOCK can step, and PKT.RECV is in progress. -/
def Receiving (s : State) : Prop := s.cfg.Admitted ∧ FaultFree s ∧ s.cmd = some (tableWord .pktRecv)

/-- One step of BLOCK runs what PKT.RECV is fetched as, in whatever script. -/
theorem BlockRun.one {i : Instr} {s t : State} (h : Receiving s) (hi : headerOr .pktRecv s = i)
    (he : ∀ es, exec i { s with script := es } = .next { t with script := es }) : BlockRun 1 s t := by
  obtain ⟨ha, hf, hc⟩ := h
  intro rest
  have hsched : Scheduled .block rest { s with script := blocks 1 ++ rest } := ⟨ha, hf, rfl⟩
  have hblock : blockStep { s with script := rest } = exec (headerOr .pktRecv s) { s with script := rest } :=
    blockStep_decoded (i := .pktRecv) hc rfl
  have hstep : step { s with script := blocks 1 ++ rest } = .next { t with script := rest } := by
    rw [step_scheduled hsched, agentStep, hblock, hi, he rest]
  exact run_succ 0 hstep

/-! ### The header -/

section
variable {s : State} {q : List Byte} (h : Receiving s)
include h

theorem blockRun_idle (hf : s.fsm = .idle) :
    BlockRun 1 s { s with pbv := false, idx := 0, fsm := .waitHeader } :=
  .one h (headerOr_self fun _ hw => by cases hf.symm.trans hw) fun _ => exec_pktRecv_idle hf

theorem blockRun_soh (hf : s.fsm = .waitHeader) (hq : s.rxq = SOH :: q) :
    BlockRun 1 s { s with rxq := q, fsm := .readBlk } :=
  .one h (headerOr_front hf hq) fun _ => exec_wireSoh_front hf hq

theorem blockRun_eot (hf : s.fsm = .waitHeader) (hq : s.rxq = EOT :: q) :
    BlockRun 1 s { s with rxq := q, fsm := .idle, res := 2, resW := true, cmd := none } :=
  .one h (headerOr_front hf hq) fun _ => exec_wireEot_front hf hq

end

/-- Noise is discarded byte by byte (R167). -/
theorem blockRun_noise {s : State} {n q : List Byte} (h : Receiving s) (hf : s.fsm = .waitHeader)
    (hn : ∀ x ∈ n, x ≠ SOH ∧ x ≠ EOT) (hq : s.rxq = n ++ q) : BlockRun n.length s { s with rxq := q } := by
  induction n generalizing s with
  | nil =>
    obtain rfl : s.rxq = q := hq
    exact .zero s
  | cons b n ih =>
    obtain ⟨hb, hn⟩ := List.forall_mem_cons.mp hn
    have hfetch : headerOr .pktRecv s = .wireNoise b := by
      rw [headerOr_front hf hq, decodeWire, if_neg hb.1, if_neg hb.2]
    have hfirst : BlockRun 1 s { s with rxq := n ++ q } := .one h hfetch fun _ => exec_wireNoise_front hf hq
    rw [List.length_cons, Nat.add_comm]
    exact hfirst.trans (ih (s := { s with rxq := n ++ q }) h hf hn rfl)

/-! ### The packet -/

/-- Outside WAIT_HEADER BLOCK runs PKT.RECV itself. -/
theorem BlockRun.pktRecv {s t : State} (h : Receiving s) (hf : s.fsm ≠ .waitHeader)
    (he : ∀ es, exec .pktRecv { s with script := es } = .next { t with script := es }) : BlockRun 1 s t :=
  .one h (headerOr_self fun _ hw => absurd hw hf) he

section
variable {s : State} {b : Byte} {q : List Byte} (h : Receiving s) (hq : s.rxq = b :: q)
include h hq

theorem blockRun_blk (hf : s.fsm = .readBlk) :
    BlockRun 1 s { s with rxq := q, blk := b, blkW := true, fsm := .readBlkc } :=
  .pktRecv h (by simp [hf]) fun _ => exec_pktRecv_blk hq hf

theorem blockRun_blkc (hf : s.fsm = .readBlkc) :
    BlockRun 1 s { s with rxq := q, blkc := b, blkcW := true, idx := 0, fsm := .readPayload } :=
  .pktRecv h (by simp [hf]) fun _ => exec_pktRecv_blkc hq hf

theorem blockRun_payloadByte (hf : s.fsm = .readPayload) (hi : s.idx < 128) :
    BlockRun 1 s { s with
      rxq := q, pb := s.pb.set s.idx b hi, idx := s.idx + 1,
      fsm := if s.idx + 1 = 128 then .readCrcHi else .readPayload } :=
  .pktRecv h (by simp [hf]) fun es => exec_pktRecv_payload (s := { s with script := es }) hq hf hi

theorem blockRun_crcHi (hf : s.fsm = .readCrcHi) :
    BlockRun 1 s { s with rxq := q, crcrx := b ++ 0x00#8, crcrxW := true, fsm := .readCrcLo } :=
  .pktRecv h (by simp [hf]) fun _ => exec_pktRecv_crcHi hq hf

theorem blockRun_crcLo (hf : s.fsm = .readCrcLo) :
    BlockRun 1 s { s with
      rxq := q, crcrx := s.crcrx.extractLsb' 8 8 ++ b, crcrxW := true, fsm := .validate } :=
  .pktRecv h (by simp [hf]) fun _ => exec_pktRecv_crcLo hq hf

end

theorem payload_front {p : Vector Byte 128} {i : Nat} (hi : i < 128) (q : List Byte) :
    p.toList.drop i ++ q = p[i] :: (p.toList.drop (i + 1) ++ q) := by
  rw [List.drop_eq_getElem_cons (by simpa using hi)]
  simp

/-- One more byte of the block agrees with `p` (R171). -/
theorem payload_set {p pb : Vector Byte 128} {i : Nat} (hi : i < 128)
    (h : ∀ j (hj : j < 128), j < i → pb[j] = p[j]) :
    ∀ j (hj : j < 128), j < i + 1 → (pb.set i p[i] hi)[j] = p[j] := by
  intro j hj hlt
  rcases Nat.lt_succ_iff_lt_or_eq.mp hlt with hlt | rfl
  · rw [Vector.getElem_set_ne hi hj (by omega), h j hj hlt]
  · exact Vector.getElem_set_self hi

/-- The last `k + 1` bytes of the payload `p`, where those before `IDX` are stored (R171). -/
theorem blockRun_payload {p : Vector Byte 128} {q : List Byte} (k : Nat) {s : State} (h : Receiving s)
    (hf : s.fsm = .readPayload) (hk : s.idx + (k + 1) = 128) (hq : s.rxq = p.toList.drop s.idx ++ q)
    (hpb : ∀ j (hj : j < 128), j < s.idx → s.pb[j] = p[j]) :
    BlockRun (k + 1) s { s with rxq := q, pb := p, idx := 128, fsm := .readCrcHi } := by
  induction k generalizing s with
  | zero =>
    have hi : s.idx < 128 := by omega
    have hfirst := blockRun_payloadByte h (hq.trans (payload_front hi q)) hf hi
    have hidx : s.idx + 1 = 128 := hk
    have hall : s.pb.set s.idx p[s.idx] hi = p := Vector.ext fun j hj => payload_set hi hpb j hj (by omega)
    rw [if_pos hidx, hall, hidx, List.drop_of_length_le (by simp)] at hfirst
    exact hfirst
  | succ k ih =>
    have hi : s.idx < 128 := by omega
    have hfirst := blockRun_payloadByte h (hq.trans (payload_front hi q)) hf hi
    have hnext : s.idx + 1 + (k + 1) = 128 := by omega
    rw [if_neg (by omega)] at hfirst
    rw [Nat.add_comm (k + 1)]
    exact hfirst.trans (ih h rfl hnext rfl (payload_set hi hpb))

/-- The pair of block bytes (R170). -/
theorem blockRun_pair {s : State} {b c : Byte} {q : List Byte} (h : Receiving s) (hf : s.fsm = .readBlk)
    (hq : s.rxq = b :: c :: q) :
    BlockRun 2 s { s with
      rxq := q, blk := b, blkW := true, blkc := c, blkcW := true, idx := 0, fsm := .readPayload } :=
  (blockRun_blk h hq hf).trans (blockRun_blkc h rfl rfl)

/-- The checksum, high byte first (R172). -/
theorem blockRun_checksum {s : State} {hi lo : Byte} {q : List Byte} (h : Receiving s) (hf : s.fsm = .readCrcHi)
    (hq : s.rxq = hi :: lo :: q) :
    BlockRun 2 s { s with rxq := q, crcrx := hi ++ lo, crcrxW := true, fsm := .validate } := by
  have hrun := (blockRun_crcHi h hq hf).trans (blockRun_crcLo h rfl rfl)
  rw [BitVec.extractLsb'_append_eq_left] at hrun
  exact hrun

/-- The state in which VALIDATE finds a packet (R169 to R172). -/
def received (b c : Byte) (p : Vector Byte 128) (hi lo : Byte) (q : List Byte) (s : State) : State :=
  { s with
    rxq := q, blk := b, blkW := true, blkc := c, blkcW := true, idx := 128, pb := p
    crcrx := hi ++ lo, crcrxW := true, fsm := .validate }

/-- A packet is taken in 133 steps, a byte each (R110). -/
theorem blockRun_packet {s : State} {b c hi lo : Byte} {p : Vector Byte 128} {q : List Byte}
    (h : Receiving s) (hf : s.fsm = .waitHeader) (hq : s.rxq = packet b c p hi lo ++ q) :
    BlockRun 133 s (received b c p hi lo q s) := by
  have hbytes : s.rxq = SOH :: b :: c :: (p.toList ++ hi :: lo :: q) := by simp [hq, packet]
  have hpair : BlockRun 3 s { s with
      rxq := p.toList ++ hi :: lo :: q, blk := b, blkW := true, blkc := c, blkcW := true, idx := 0
      fsm := .readPayload } := (blockRun_soh h hf hbytes).trans (blockRun_pair h rfl rfl)
  have hpayload : BlockRun 131 s { s with
      rxq := hi :: lo :: q, blk := b, blkW := true, blkc := c, blkcW := true, idx := 128, pb := p
      fsm := .readCrcHi } :=
    hpair.trans (blockRun_payload 127 h rfl rfl rfl fun j _ hj => absurd hj (Nat.not_lt_zero j))
  exact hpayload.trans (blockRun_checksum h rfl rfl)

/-- The first step and the noise, to the first byte `q` holds (R166, R167). -/
theorem blockRun_toHeader {s : State} {n q : List Byte} (h : Receiving s) (hf : s.fsm = .idle)
    (hn : ∀ x ∈ n, x ≠ SOH ∧ x ≠ EOT) (hq : s.rxq = n ++ q) :
    BlockRun (1 + n.length) s { s with rxq := q, idx := 0, pbv := false, fsm := .waitHeader } :=
  (blockRun_idle h hf).trans (blockRun_noise h rfl hn hq)

/-- From the start of PKT.RECV to VALIDATE. -/
theorem blockRun_toValidate {s : State} {n : List Byte} {b c hi lo : Byte} {p : Vector Byte 128}
    {later : List Byte} (h : Receiving s) (hf : s.fsm = .idle) (hn : ∀ x ∈ n, x ≠ SOH ∧ x ≠ EOT)
    (hq : s.rxq = n ++ packet b c p hi lo ++ later) :
    BlockRun (1 + n.length + 133) s (received b c p hi lo later { s with pbv := false }) :=
  (blockRun_toHeader h hf hn (hq.trans (List.append_assoc _ _ _))).trans (blockRun_packet h rfl rfl)

/-! ### VALIDATE and SEND_NAK -/

theorem blockRun_nak {s : State} (h : Receiving s) (hf : s.fsm = .sendNak) (ht : s.txh = none) :
    BlockRun 1 s { s with txh := some NAK, fsm := .waitHeader } :=
  .pktRecv h (by simp [hf]) fun es => exec_pktRecv_nak (s := { s with script := es }) hf ht

section
variable {s : State} (h : Receiving s) (hf : s.fsm = .validate)
include h hf

theorem blockRun_accept (hc : crc16 s.pb = s.crcrx) (hb : s.blk.toNat + s.blkc.toNat = 255) :
    BlockRun 1 s { s with
      crcreg := crc16 s.pb, pbv := true, fsm := .idle, res := resBlock, resW := true, cmd := none } :=
  .pktRecv h (by simp [hf]) fun es => exec_pktRecv_accept (s := { s with script := es }) hf hc hb

/-- The reject and its byte, with `TXH` empty (R175). -/
theorem blockRun_reject (hbad : ¬ (crc16 s.pb = s.crcrx ∧ s.blk.toNat + s.blkc.toNat = 255)) (ht : s.txh = none) :
    BlockRun 2 s { s with crcreg := crc16 s.pb, txh := some NAK, fsm := .waitHeader } := by
  have hreject : BlockRun 1 s { s with crcreg := crc16 s.pb, fsm := .sendNak } :=
    .pktRecv h (by simp [hf]) fun es => exec_pktRecv_reject (s := { s with script := es }) hf hbad
  exact hreject.trans (blockRun_nak h rfl ht)

end

/-! ### The runs of R177 -/

/-- Settles O26: the packet to VALIDATE, and the accept. -/
theorem wellFormedPacketIsAccepted : Obligations.WellFormedPacketIsAccepted := by
  intro s n b c hi lo p later rest ha hfault hcmd hf hn hq hscript hsum hcrc
  have h : Receiving s := ⟨ha, hfault, hcmd⟩
  have haccept := blockRun_accept (s := received b c p hi lo later { s with pbv := false }) h rfl hcrc.symm hsum
  exact ((blockRun_toValidate h hf hn hq).trans haccept).run (by omega) hscript

/-- Settles O27: the packet to VALIDATE, the reject, and its byte into the empty `TXH`. -/
theorem badPacketIsRejected : Obligations.BadPacketIsRejected := by
  intro s n b c hi lo p later rest ha hfault hcmd hf htx hn hq hscript hbad
  have h : Receiving s := ⟨ha, hfault, hcmd⟩
  have hfails : ¬ (crc16 p = hi ++ lo ∧ b.toNat + c.toNat = 255) := fun ⟨hcrc, hsum⟩ =>
    hbad.elim (· hsum) (· hcrc.symm)
  have hreject := blockRun_reject (s := received b c p hi lo later { s with pbv := false }) h rfl hfails htx
  exact ((blockRun_toValidate h hf hn hq).trans hreject).run (by omega) hscript

/-- Settles O28: the first step, the noise, and the end of transmission. -/
theorem endOfTransmissionEndsTheCommand : Obligations.EndOfTransmissionEndsTheCommand := by
  intro s n later rest ha hfault hcmd hf hn hq hscript
  have h : Receiving s := ⟨ha, hfault, hcmd⟩
  exact ((blockRun_toHeader h hf hn hq).trans (blockRun_eot h rfl rfl)).run (by omega) hscript

end Sys2Proof.Proofs.Framer
end

section
/-! SUPPORT. The Program-Memory Writer: the steps of NVM.WRBLK and NVM.FLAG in each state of the sequencer, and what the
two commands leave unchanged (43_nvm_writer.md). -/

namespace Sys2Proof.Proofs.Writer
open Sys2Proof.Machine

/-! ### NVM.WRBLK -/

theorem exec_nvmWrblk_invalid {s : State} (hw : s.wseq = .idle) (hv : s.pbv = false) :
    exec .nvmWrblk s = .next { s with fault := .pbInvalid, faultRec := .word 0x3000 } := by
  simp only [exec, execNvmWrblk, hw, beginWrite, hv, Bool.false_eq_true, if_false, raiseFault, tableWord]

theorem exec_nvmWrblk_range {s : State} (hw : s.wseq = .idle) (hv : s.pbv = true) (hr : ¬ cursorFits s) :
    exec .nvmWrblk s = .next { s with fault := .cursorRange, faultRec := .wordCursor 0x3000 s.cursor } := by
  simp only [exec, execNvmWrblk, hw, beginWrite, hv, if_true, if_neg hr, raiseFault, tableWord]

theorem exec_nvmWrblk_begin {s : State} (hw : s.wseq = .idle) (hv : s.pbv = true) (hr : cursorFits s) :
    exec .nvmWrblk s = .next { s with widx := 0, wseq := .stage } := by
  simp only [exec, execNvmWrblk, hw, beginWrite, hv, if_true, if_pos hr]

/-- Settles O31: `beginWrite` tests `PBV` first and then the room at `CURSOR`. -/
theorem writeChecksThenStages : Obligations.WriteChecksThenStages := fun _ hw =>
  ⟨exec_nvmWrblk_invalid hw, fun hv hr => exec_nvmWrblk_range hw hv (Nat.not_le_of_lt hr), exec_nvmWrblk_begin hw⟩

theorem exec_nvmWrblk_stage {s : State} (h : s.widx < 128) (hw : s.wseq = .stage) :
    exec .nvmWrblk s = .next { s with
      pgbuf := s.pgbuf.set ((s.cursor + s.widx) % s.cfg.pageSize) s.pb[s.widx]
      paddr := (s.cursor + s.widx) - (s.cursor + s.widx) % s.cfg.pageSize
      acc := s.acc + 1, widx := s.widx + 1
      wseq := if s.acc + 1 = s.cfg.pageSize then .commit
              else if s.widx + 1 = 128 then .verify else .stage } := by
  simp only [exec, execNvmWrblk, hw, stageStep, payloadByte, Vector.getElem?_eq_getElem h, stageAddr, pageSlot,
    pageBase]

/-- Settles O32. -/
theorem stagingFillsThePageBuffer : Obligations.StagingFillsThePageBuffer := fun _ => exec_nvmWrblk_stage

/-- The verify compares byte by byte (R204). -/
theorem verifyOk_iff {s : State} : verifyOk s = true ↔ ∀ i : Fin 128, flashByte (s.cursor + i) s = s.pb[i] := by
  have hbyte (i : Fin 128) :
      (s.pb[i.val]? == some (flashByte (stageAddr i s) s)) = true ↔ flashByte (s.cursor + i) s = s.pb[i] := by
    simp [stageAddr, eq_comm (a := s.pb[i.val])]
  rw [verifyOk, List.all_eq_true]
  exact ⟨fun h i => (hbyte i).mp (h i (List.mem_range.mpr i.isLt)),
    fun h i hi => (hbyte ⟨i, List.mem_range.mp hi⟩).mpr (h ⟨i, List.mem_range.mp hi⟩)⟩

theorem exec_nvmWrblk_verify {s : State} (hw : s.wseq = .verify) (hr : cursorFits s) :
    exec .nvmWrblk s = .next (finish (verifyOk s) s) := by
  simp only [exec, execNvmWrblk, hw, verifyStep, if_pos hr]

theorem exec_nvmWrblk_verified {s : State} (hw : s.wseq = .verify) (hr : cursorFits s)
    (h : ∀ i : Fin 128, flashByte (s.cursor + i) s = s.pb[i]) :
    exec .nvmWrblk s = .next { s with
      vfy := true, cursor := s.cursor + 128, res := 1, resW := true, wseq := .idle, cmd := none } := by
  rw [exec_nvmWrblk_verify hw hr, verifyOk_iff.mpr h]
  rfl

theorem exec_nvmWrblk_mismatch {s : State} (hw : s.wseq = .verify) (hr : cursorFits s)
    (h : ∃ i : Fin 128, flashByte (s.cursor + i) s ≠ s.pb[i]) :
    exec .nvmWrblk s = .next { s with vfy := false, res := 0, resW := true, wseq := .idle, cmd := none } := by
  have hok : verifyOk s = false := Bool.eq_false_iff.mpr fun hv => h.elim fun i hi => hi (verifyOk_iff.mp hv i)
  rw [exec_nvmWrblk_verify hw hr, hok]
  rfl

/-- Settles O34: the two cases are those of `verifyOk`, on which `finish` decides. -/
theorem verifyDecidesTheResult : Obligations.VerifyDecidesTheResult := fun _ hw hr =>
  ⟨exec_nvmWrblk_verified hw hr, exec_nvmWrblk_mismatch hw hr⟩

/-! ### NVM.FLAG -/

theorem exec_nvmFlag_issue {s : State} (hw : s.wseq = .idle) (hb : s.nvmBusy = false) :
    exec .nvmFlag s = .next { s with
      pending := some (.ee s.cfg.flagAddr s.cfg.programmedMarker), nvmBusy := true, wseq := .flag } := by
  simp only [exec, execNvmFlag, hw, beginFlag, hb, Bool.false_eq_true, if_false, startCommit]

theorem exec_nvmFlag_hold {s : State} (hw : s.wseq = .idle ∨ s.wseq = .flag) (hb : s.nvmBusy = true) :
    exec .nvmFlag s = .next s := by
  rcases hw with hw | hw
  · simp only [exec, execNvmFlag, hw, beginFlag, if_pos hb]
  · simp only [exec, execNvmFlag, hw, flagStep, if_pos hb]

theorem exec_nvmFlag_end {s : State} (hw : s.wseq = .flag) (hb : s.nvmBusy = false) :
    exec .nvmFlag s = .next { s with wseq := .idle, cmd := none } := by
  simp only [exec, execNvmFlag, hw, flagStep, hb, Bool.false_eq_true, if_false, endCmd]

/-- Settles O35: in both of its states the command tests `NVMBUSY` first. -/
theorem flagWriteIssuesHoldsAndEnds : Obligations.FlagWriteIssuesHoldsAndEnds := fun _ =>
  ⟨exec_nvmFlag_issue, fun hw => exec_nvmFlag_hold (by simpa using hw), exec_nvmFlag_end⟩

/-! ### What the two commands leave unchanged -/

/-- Settles O36: no next state of the writer differs from the state before in any other field. -/
theorem writerFrame : Obligations.WriterFrame := by
  intro s t
  refine ⟨fun h => ?flag, fun h => ?write⟩
  case flag => cases execNvmFlag_next h <;> rfl
  case write => cases execNvmWrblk_next h <;> rfl

end Sys2Proof.Proofs.Writer
end

section
/-! SUPPORT. Whole runs of NVM.WRBLK and NVM.FLAG under the nominal oracle: the steps of BLOCK and NVM that a schedule
names, joined page by page (43_nvm_writer.md rules R206, R212). -/

namespace Sys2Proof.Proofs.Writer
open Sys2Proof.Machine
open Sys2Proof.Safety
open Sys2Proof.Proofs.Registers
open Sys2Proof.Proofs.Memories
open Sys2Proof.Proofs.Framer

/-! ### What an admitted configuration gives (R8, R11) -/

section
variable {c : Config} (h : c.Admitted)
include h

theorem pageSize_pos : 0 < c.pageSize := h.1.1

theorem pageSize_dvd : c.pageSize ∣ 128 := Nat.dvd_of_mod_eq_zero h.1.2

theorem flagAddr_lt : c.flagAddr < c.eepromSize := h.2.2.2.1

end

/-! ### Runs of a schedule -/

/-- The events `es`, none of another agent between them, take `s` to `t`, whatever is scheduled after them. The script
of either state does not count. -/
def EventRun (es : List Event) (s t : State) : Prop :=
  ∀ rest, core.run es.length { s with script := es ++ rest } = .next { t with script := rest }

theorem EventRun.trans {es fs : List Event} {s t u : State} (h : EventRun es s t) (h' : EventRun fs t u) :
    EventRun (es ++ fs) s u := by
  intro rest
  rw [List.append_assoc, List.length_append, run_add _ (h _), h' rest]

/-- A run of as many steps as are scheduled, read off. -/
theorem EventRun.run {es rest : List Event} {s t : State} (h : EventRun es s t) (hs : s.script = es ++ rest) :
    core.run es.length s = .next { t with script := rest } := by
  rw [← h rest, ← hs]

/-- BLOCK can step, and the command `i` is in progress. -/
structure InProgress (i : Instr) (s : State) : Prop where
  admitted : s.cfg.Admitted
  faultFree : FaultFree s
  cmd : s.cmd = some (tableWord i)

/-- One step of the agent that `e` names, in whatever script. -/
theorem EventRun.one {e : Event} {s t : State} (ha : s.cfg.Admitted) (hf : FaultFree s)
    (he : ∀ es, agentStep e { s with script := es } = .next { t with script := es }) : EventRun [e] s t := by
  intro rest
  have hsched : Scheduled e rest { s with script := [e] ++ rest } := ⟨ha, hf, rfl⟩
  exact run_succ 0 ((step_scheduled hsched).trans (he rest))

/-- One step of BLOCK runs the command in progress; only PKT.RECV is ever fetched as another instruction. -/
theorem EventRun.block {i : Instr} {s t : State} (h : InProgress i s) (hd : decodeCmd (tableWord i) = .ok i)
    (hi : i ≠ .pktRecv) (he : ∀ es, exec i { s with script := es } = .next { t with script := es }) :
    EventRun [.block] s t := by
  refine .one h.admitted h.faultFree fun es => ?_
  rw [agentStep, blockStep_decoded (s := { s with script := es }) h.cmd hd, headerOr_self fun hp => absurd hp hi, he es]

theorem EventRun.nvmWrblk {s t : State} (h : InProgress .nvmWrblk s)
    (he : ∀ es, exec .nvmWrblk { s with script := es } = .next { t with script := es }) : EventRun [.block] s t :=
  .block h rfl nofun he

theorem EventRun.nvmFlag {s t : State} (h : InProgress .nvmFlag s)
    (he : ∀ es, exec .nvmFlag { s with script := es } = .next { t with script := es }) : EventRun [.block] s t :=
  .block h rfl nofun he

/-- The nominal completion of a page commit (R80, R81). -/
theorem eventRun_completePage {s : State} {page : Nat} {data : List Byte} (ha : s.cfg.Admitted) (hf : FaultFree s)
    (hb : s.nvmBusy = true) (hp : s.pending = some (.flash page data)) (hr : page + data.length ≤ s.cfg.flashSize) :
    EventRun [.nvm []] s { s with
      flash := s.flash.writeBytes page data, pgbuf := blankPage s.cfg, pending := none, nvmBusy := false } :=
  .one ha hf fun es => by
    rw [agentStep, nvmComplete_page (s := { s with script := es }) [] hb hp hr, oracleBytes_nominal, commitDone]

/-- The nominal completion of a flag write (R80, R81). -/
theorem eventRun_completeFlag {s : State} {addr : Nat} {v : Byte} (ha : s.cfg.Admitted) (hf : FaultFree s)
    (hb : s.nvmBusy = true) (hp : s.pending = some (.ee addr v)) (hr : addr < s.cfg.eepromSize) :
    EventRun [.nvm []] s { s with ee := s.ee.writeBytes addr [v], pending := none, nvmBusy := false } :=
  .one ha hf fun es => by
    rw [agentStep, nvmComplete_flagByte (s := { s with script := es }) [] hb hp hr, oracleBytes_nominal, commitDone]

/-! ### NVM.FLAG -/

theorem eventRun_nvmFlag {s : State} (h : InProgress .nvmFlag s) (hw : s.wseq = .idle) (hb : s.nvmBusy = false) :
    EventRun [.block, .nvm [], .block] s { s with
      ee := s.ee.writeBytes s.cfg.flagAddr [s.cfg.programmedMarker], wseq := .idle, pending := none, nvmBusy := false
      cmd := none } := by
  have hissue : EventRun [.block] s { s with
      pending := some (.ee s.cfg.flagAddr s.cfg.programmedMarker), nvmBusy := true, wseq := .flag } :=
    .nvmFlag { h with } fun es => exec_nvmFlag_issue (s := { s with script := es }) hw hb
  have hwrite := hissue.trans (eventRun_completeFlag h.admitted h.faultFree rfl rfl (flagAddr_lt h.admitted))
  exact hwrite.trans (.nvmFlag { h with } fun _ => exec_nvmFlag_end rfl rfl)

/-- Settles O41: the completion writes the one byte, and after the run the writer's registers are as before. -/
theorem nominalFlagWrite : Obligations.NominalFlagWrite := by
  intro s rest ha hf hc hw hb hp hs
  refine ⟨_, (eventRun_nvmFlag ⟨ha, hf, hc⟩ hw hb).run hs, ?flag, fun a hne => ?others, ?frame, rfl, rfl⟩
  case flag => exact eeByte_writeBytes (j := 0) rfl rfl
  case others =>
    refine eeByte_writeBytes_outside rfl ?_
    rw [List.length_singleton]
    omega
  case frame =>
    rw [← hw, ← hb, ← hp]

/-! ### The staging of a page -/

/-- What a page holds that is staged from `PB[base]` on (R201). -/
def pageData (base : Nat) (s : State) : List Byte := (s.pb.toList.drop base).take s.cfg.pageSize

/-- NVM.WRBLK stages the page at `CURSOR + base`; its first `ACC` bytes are in the page buffer (R42, R43, R201). -/
structure InPage (base : Nat) (s : State) : Prop where
  inProgress : InProgress .nvmWrblk s
  wseq : s.wseq = .stage
  widx : s.widx = base + s.acc
  notFull : s.acc < s.cfg.pageSize
  aligned : (s.cursor + base) % s.cfg.pageSize = 0
  room : base + s.cfg.pageSize ≤ 128
  fits : cursorFits s
  notBusy : s.nvmBusy = false
  length : s.pgbuf.length = s.cfg.pageSize
  staged : s.pgbuf.take s.acc = (s.pb.toList.drop base).take s.acc

/-- One more byte of the block in the next slot of the buffer. -/
theorem take_set_staged {buf : List Byte} {p : Vector Byte 128} {base i : Nat} (hi : i < buf.length)
    (hp : base + i < 128) (h : buf.take i = (p.toList.drop base).take i) :
    (buf.set i p[base + i]).take (i + 1) = (p.toList.drop base).take (i + 1) := by
  rw [List.take_succ_eq_append_getElem (by simpa using hi), List.take_succ_eq_append_getElem (by simp; omega),
    List.take_set_of_le (Nat.le_refl i), h]
  simp

/-- A byte's place in its page is its slot (R43). -/
theorem slot_of_aligned {page acc size : Nat} (ha : page % size = 0) (hlt : acc < size) : (page + acc) % size = acc := by
  rw [← Nat.mod_add_mod, ha, Nat.zero_add, Nat.mod_eq_of_lt hlt]

section
variable {base : Nat} {s : State} (h : InPage base s)
include h

theorem inPage_widx_lt : s.widx < 128 := by
  have hwidx := h.widx
  have hfull := h.notFull
  have hroom := h.room
  omega

/-- One staged byte, in the terms of its page. -/
theorem eventRun_stageByte : EventRun [.block] s { s with
    pgbuf := s.pgbuf.set s.acc (s.pb[s.widx]'(inPage_widx_lt h)), paddr := s.cursor + base, acc := s.acc + 1
    widx := s.widx + 1
    wseq := if s.acc + 1 = s.cfg.pageSize then .commit else if s.widx + 1 = 128 then .verify else .stage } := by
  have haddr : s.cursor + s.widx = s.cursor + base + s.acc := by rw [h.widx, Nat.add_assoc]
  have hlt := inPage_widx_lt h
  refine .nvmWrblk h.inProgress fun es => ?_
  rw [exec_nvmWrblk_stage (s := { s with script := es }) hlt h.wseq]
  simp only [haddr, slot_of_aligned h.aligned h.notFull, Nat.add_sub_cancel]

theorem take_set_inPage : (s.pgbuf.set s.acc (s.pb[s.widx]'(inPage_widx_lt h))).take (s.acc + 1) =
    (s.pb.toList.drop base).take (s.acc + 1) := by
  have hlt := inPage_widx_lt h
  have hslot : s.acc < s.pgbuf.length := h.length ▸ h.notFull
  simp only [h.widx] at hlt ⊢
  exact take_set_staged hslot hlt h.staged

/-- Where the page has room for another byte, the next step stages it. -/
theorem inPage_next (hmore : s.acc + 1 < s.cfg.pageSize) : InPage base { s with
    pgbuf := s.pgbuf.set s.acc (s.pb[s.widx]'(inPage_widx_lt h)), paddr := s.cursor + base, acc := s.acc + 1
    widx := s.widx + 1, wseq := .stage } :=
  { h with
    inProgress := { h.inProgress with }
    wseq := rfl
    widx := congrArg (· + 1) h.widx
    notFull := hmore
    length := by rw [List.length_set, h.length]
    staged := take_set_inPage h }

/-- The last `k + 1` bytes of a page. -/
theorem eventRun_stage (k : Nat) (hk : s.acc + (k + 1) = s.cfg.pageSize) : EventRun (blocks (k + 1)) s { s with
    pgbuf := pageData base s, paddr := s.cursor + base, acc := s.cfg.pageSize, widx := base + s.cfg.pageSize
    wseq := .commit } := by
  have hfirst := eventRun_stageByte h
  induction k generalizing s with
  | zero =>
    have hfull : s.acc + 1 = s.cfg.pageSize := hk
    have hdata : s.pgbuf.set s.acc (s.pb[s.widx]'(inPage_widx_lt h)) = pageData base s := by
      rw [pageData, ← hfull, ← take_set_inPage h, List.take_of_length_le (by simp [h.length, hfull])]
    rw [if_pos hfull, hdata, h.widx, Nat.add_assoc, hfull] at hfirst
    exact hfirst
  | succ k ih =>
    have hmore : s.acc + 1 < s.cfg.pageSize := by omega
    have hlast : s.widx + 1 ≠ 128 := by
      have hwidx := h.widx
      have hroom := h.room
      omega
    have hnext := inPage_next h hmore
    have hrest : s.acc + 1 + (k + 1) = s.cfg.pageSize := by omega
    rw [if_neg hmore.ne, if_neg hlast] at hfirst
    exact hfirst.trans (ih hnext hrest (eventRun_stageByte hnext))

end

/-! ### The pages -/

theorem pageData_length {base : Nat} {s : State} (hroom : base + s.cfg.pageSize ≤ 128) :
    (pageData base s).length = s.cfg.pageSize := by
  rw [pageData, List.length_take, List.length_drop, Vector.length_toList]
  omega

/-- A page of the block, and then the bytes after it. -/
theorem writeBytes_pageData {base : Nat} {s : State} (hroom : base + s.cfg.pageSize ≤ 128) (m : Memory) (a : Nat) :
    (m.writeBytes (a + base) (pageData base s)).writeBytes (a + (base + s.cfg.pageSize))
      (s.pb.toList.drop (base + s.cfg.pageSize)) = m.writeBytes (a + base) (s.pb.toList.drop base) := by
  have hsplit : pageData base s ++ s.pb.toList.drop (base + s.cfg.pageSize) = s.pb.toList.drop base := by
    rw [pageData, ← List.drop_drop, List.take_append_drop]
  rw [← hsplit, Memory.writeBytes_append, pageData_length hroom, Nat.add_assoc]

section
variable {s : State} (h : InProgress .nvmWrblk s) (hw : s.wseq = .commit) (hb : s.nvmBusy = false)
include h hw hb

theorem eventRun_commit (ha : s.acc ≠ 0) : EventRun [.block] s { s with
    acc := 0, pending := some (.flash s.paddr s.pgbuf), nvmBusy := true } :=
  .nvmWrblk h fun es => (commitIssuesHoldsAndGoesOn { s with script := es } hw).1 hb ha

theorem eventRun_leaveCommit (ha : s.acc = 0) :
    EventRun [.block] s { s with wseq := if s.widx = 128 then .verify else .stage } :=
  .nvmWrblk h fun es => (commitIssuesHoldsAndGoesOn { s with script := es } hw).2.2 hb ha

end

/-- The state with the page from `base` on written: the next page or the verify is next (R202). -/
def pageWritten (base : Nat) (s : State) : State :=
  { s with
    flash := s.flash.writeBytes (s.cursor + base) (pageData base s), pgbuf := blankPage s.cfg
    paddr := s.cursor + base, acc := 0, widx := base + s.cfg.pageSize, pending := none, nvmBusy := false
    wseq := if base + s.cfg.pageSize = 128 then .verify else .stage }

/-- A page is staged, committed, completed, and left (R201, R202, R80). -/
theorem eventRun_page {base : Nat} {s : State} (h : InPage base s) (ha : s.acc = 0) :
    EventRun (pageSchedule s.cfg) s (pageWritten base s) := by
  have hprog := h.inProgress
  have hpos := pageSize_pos hprog.admitted
  have hsize : s.cfg.pageSize - 1 + 1 = s.cfg.pageSize := Nat.sub_add_cancel hpos
  have hstage := eventRun_stage h (s.cfg.pageSize - 1) (by rw [ha, hsize, Nat.zero_add])
  rw [hsize] at hstage
  have hinside : s.cursor + base + (pageData base s).length ≤ s.cfg.flashSize := by
    have hroom := h.room
    have hfits : s.cursor + 128 ≤ s.cfg.flashSize := h.fits
    rw [pageData_length hroom]
    omega
  have hcommit := hstage.trans (eventRun_commit { hprog with } rfl h.notBusy hpos.ne')
  have hcomplete := hcommit.trans (eventRun_completePage hprog.admitted hprog.faultFree rfl rfl hinside)
  have hleave := hcomplete.trans (eventRun_leaveCommit { hprog with } rfl rfl rfl)
  rw [List.append_assoc, List.append_assoc] at hleave
  exact hleave

/-- A page that is not the last is followed by another (R202). -/
theorem inPage_pageWritten {base : Nat} {s : State} (h : InPage base s)
    (hroom : base + s.cfg.pageSize + s.cfg.pageSize ≤ 128) :
    InPage (base + s.cfg.pageSize) (pageWritten base s) := by
  have hpos := pageSize_pos h.inProgress.admitted
  exact {
    inProgress := { h.inProgress with }
    fits := h.fits
    wseq := if_neg (by omega)
    widx := rfl
    notFull := hpos
    aligned := by
      show (s.cursor + (base + s.cfg.pageSize)) % s.cfg.pageSize = 0
      rw [← Nat.add_assoc, Nat.add_mod_right, h.aligned]
    room := hroom
    notBusy := rfl
    length := List.length_replicate
    staged := rfl }

/-- The state with all pages from `base` on written: the verify is next (R202). -/
def pagesWritten (base : Nat) (s : State) : State :=
  { s with
    flash := s.flash.writeBytes (s.cursor + base) (s.pb.toList.drop base), pgbuf := blankPage s.cfg
    paddr := s.cursor + 128 - s.cfg.pageSize, acc := 0, widx := 128, pending := none, nvmBusy := false
    wseq := .verify }

theorem pageWritten_last {base : Nat} {s : State} (hlast : base + s.cfg.pageSize = 128) :
    pageWritten base s = pagesWritten base s := by
  have hdata : pageData base s = s.pb.toList.drop base := List.take_of_length_le (by simp; omega)
  have haddr : s.cursor + base = s.cursor + 128 - s.cfg.pageSize := by omega
  rw [pageWritten, pagesWritten, if_pos hlast, hdata, hlast, ← haddr]

theorem pagesWritten_pageWritten {base : Nat} {s : State} (hroom : base + s.cfg.pageSize ≤ 128) :
    pagesWritten (base + s.cfg.pageSize) (pageWritten base s) = pagesWritten base s := by
  rw [pagesWritten, pagesWritten, ← writeBytes_pageData hroom]
  rfl

/-- The last `n + 1` pages of the block (R206). -/
theorem eventRun_pages (n : Nat) {base : Nat} {s : State} (h : InPage base s) (ha : s.acc = 0)
    (hn : base + (n + 1) * s.cfg.pageSize = 128) :
    EventRun (pagesSchedule s.cfg (n + 1)) s (pagesWritten base s) := by
  have hpage := eventRun_page h ha
  induction n generalizing base s with
  | zero =>
    have hlast : base + s.cfg.pageSize = 128 := by rwa [Nat.zero_add, Nat.one_mul] at hn
    rw [pageWritten_last hlast] at hpage
    rw [pagesSchedule, pagesSchedule, List.append_nil]
    exact hpage
  | succ n ih =>
    have hrest : base + s.cfg.pageSize + (n + 1) * s.cfg.pageSize = 128 := by
      rw [← hn, Nat.succ_mul (n + 1)]
      omega
    have hroom : base + s.cfg.pageSize + s.cfg.pageSize ≤ 128 := by
      rw [Nat.succ_mul] at hrest
      omega
    have hnext := inPage_pageWritten h hroom
    have hrun := hpage.trans (ih hnext rfl hrest (eventRun_page hnext rfl))
    rw [pagesWritten_pageWritten h.room] at hrun
    exact hrun

/-! ### The whole NVM.WRBLK -/

theorem count_pagesSchedule (c : Config) (n : Nat) : (pagesSchedule c n).count (.nvm []) = n := by
  induction n with
  | zero => rfl
  | succ n ih =>
    have hpage : (pageSchedule c).count (.nvm []) = 1 := by simp [pageSchedule, blocks, List.count_replicate]
    rw [pagesSchedule, List.count_append, hpage, ih, Nat.add_comm]

theorem eventRun_begin {s : State} (h : InProgress .nvmWrblk s) (hw : s.wseq = .idle) (hv : s.pbv = true)
    (hr : cursorFits s) : EventRun [.block] s { s with widx := 0, wseq := .stage } :=
  .nvmWrblk h fun es => exec_nvmWrblk_begin (s := { s with script := es }) hw hv hr

/-- The verify finds the block that the pages hold (R204, R205). -/
theorem eventRun_verify {s : State} {m : Memory} (h : InProgress .nvmWrblk s) (hw : s.wseq = .verify)
    (hr : cursorFits s) (hm : s.flash = m.writeBytes s.cursor s.pb.toList) :
    EventRun [.block] s { s with
      vfy := true, cursor := s.cursor + 128, res := 1, resW := true, wseq := .idle, cmd := none } := by
  have hread (i : Fin 128) : flashByte (s.cursor + i) s = s.pb[i] :=
    flashByte_writeBytes (s := { s with flash := m }) hm (by simp)
  exact .nvmWrblk h fun es => exec_nvmWrblk_verified (s := { s with script := es }) hw hr hread

/-- At the first step's end the first page is at hand, with no byte in the page buffer. -/
theorem inPage_begin {s : State} (h : InProgress .nvmWrblk s) (hr : cursorFits s)
    (halign : s.cursor % s.cfg.pageSize = 0) (ha : s.acc = 0) (hb : s.nvmBusy = false)
    (hlen : s.pgbuf.length = s.cfg.pageSize) : InPage 0 { s with widx := 0, wseq := .stage } where
  inProgress := { h with }
  wseq := rfl
  widx := ha.symm.trans (Nat.zero_add _).symm
  notFull := ha.trans_lt (pageSize_pos h.admitted)
  aligned := halign
  room := (Nat.zero_add _).trans_le (Nat.le_of_dvd (by decide) (pageSize_dvd h.admitted))
  fits := hr
  notBusy := hb
  length := hlen
  staged := by rw [ha, List.take_zero, List.take_zero]

/-- The first step, `128 / PAGE_SIZE` pages, and the verify (R200 to R206). -/
theorem eventRun_nvmWrblk {s : State} (h : InProgress .nvmWrblk s) (hw : s.wseq = .idle) (hv : s.pbv = true)
    (hr : cursorFits s) (halign : s.cursor % s.cfg.pageSize = 0) (ha : s.acc = 0) (hb : s.nvmBusy = false)
    (hlen : s.pgbuf.length = s.cfg.pageSize) :
    EventRun (writeSchedule s.cfg) s { s with
      flash := s.flash.writeBytes s.cursor s.pb.toList, pgbuf := blankPage s.cfg
      paddr := s.cursor + 128 - s.cfg.pageSize, acc := 0, widx := 128, pending := none, nvmBusy := false
      vfy := true, cursor := s.cursor + 128, res := 1, resW := true, wseq := .idle, cmd := none } := by
  have hwhole : 128 / s.cfg.pageSize * s.cfg.pageSize = 128 :=
    Nat.div_mul_cancel (pageSize_dvd h.admitted)
  obtain ⟨n, hn⟩ : ∃ n, 128 / s.cfg.pageSize = n + 1 :=
    Nat.exists_eq_succ_of_ne_zero fun h0 => by simp [h0] at hwhole
  have hpages := eventRun_pages n (inPage_begin h hr halign ha hb hlen) ha (by rw [Nat.zero_add, ← hn, hwhole])
  rw [← hn] at hpages
  exact (eventRun_begin h hw hv hr).trans (hpages.trans (eventRun_verify { h with } rfl hr rfl))

/-- Settles O40: a completion per page, and the whole run, after which `ACC` and the pending commit are as before. -/
theorem nominalWriteBlock : Obligations.NominalWriteBlock := by
  intro s rest hadm hf hc hw hv hr halign ha hb hp hlen hs
  refine ⟨?count, ?run⟩
  case count => simp [writeSchedule, count_pagesSchedule]
  case run =>
    rw [ha, hb, hp]
    exact (eventRun_nvmWrblk ⟨hadm, hf, hc⟩ hw hv hr halign ha hb hlen).run hs

end Sys2Proof.Proofs.Writer
end

section
/-! SUPPORT. HOST and the application: the step of each statement of the host's program, whole boots of the reference
host, and the application's re-entry request (48_host_software.md). -/

namespace Sys2Proof.Proofs.HostProgram
open Sys2Proof.Machine
open Sys2Proof.Safety
open Sys2Proof.Proofs.Memories
open Sys2Proof.Proofs.Writer

/-! ### A step of the program -/

/-- HOST is not blocked, and stands at the statement `st`: position `n`, after `k` probes (R230, R45). -/
structure AtStmt (n k : Nat) (st : HostStmt) (s : State) : Prop where
  cmd : s.cmd = none
  hpc : s.hpc = .stmt n k
  stmt : s.prog[n]? = some st

section
variable {n k : Nat} {st : HostStmt} {ctrl : Bool} {r : ResetDraw} {s : State}

theorem AtStmt.ofReference (hprog : s.prog = referenceProgram s.cfg) (hc : s.cmd = none) (hh : s.hpc = .stmt n k)
    (hst : (referenceProgram s.cfg)[n]? = some st) : AtStmt n k st s where
  cmd := hc
  hpc := hh
  stmt := by rw [hprog, hst]

theorem hostStep_atStmt (h : AtStmt n k st s) : hostStep ctrl r s = stmtStep n k ctrl r s st := by
  obtain ⟨hc, hh, hst⟩ := h
  have hb : s.busy = false := busy_eq_false.mpr hc
  simp [hostStep, hb, hh, hst]

/-- A scheduled step of HOST is the statement's in the state whose script has moved on. -/
theorem step_host {rest : List Event} (hs : Scheduled (.host ctrl r) rest s) (h : AtStmt n k st s) :
    step s = stmtStep n k ctrl r { s with script := rest } st :=
  (step_scheduled hs).trans (hostStep_atStmt { h with })

/-- One step of HOST runs the statement it stands at, in whatever script. -/
theorem eventRun_host {t : State} (ha : s.cfg.Admitted) (hf : FaultFree s) (h : AtStmt n k st s)
    (he : ∀ es, stmtStep n k ctrl r { s with script := es } st = .next { t with script := es }) :
    EventRun [.host ctrl r] s t :=
  .one ha hf fun es => (hostStep_atStmt (s := { s with script := es }) { h with }).trans (he es)

end

/-! ### The Entry Decision and the transfer of control -/

theorem entersUpdate_iff (flag : Byte) (ctrl : Bool) (c : Config) :
    entersUpdate flag ctrl c = true ↔ flag = 0xFF ∨ ctrl = c.ctrlActive := by
  simp [entersUpdate, ERASED]

theorem transferToApp_fresh {s : State} (h : freshBoot s) :
    transferToApp s = .next { s with mode := .app, hpc := .app s.cfg.appStart } := if_pos h

theorem transferToApp_stale {s : State} (h : ¬ freshBoot s) : transferToApp s = .refused .jumpWithoutReset := if_neg h

section
variable {ctrl : Bool} {s : State} (n : Nat) (ha : s.cfg.Admitted)
include ha

/-- The Entry Decision's way into update mode (R241, R244). -/
theorem entryStep_update (h : eeByte s.cfg.flagAddr s = 0xFF ∨ ctrl = s.cfg.ctrlActive) :
    entryStep n ctrl s = .next { s with pullup := true, mode := .update, hpc := .stmt (n + 1) 0 } := by
  rw [entryStep, if_pos (flagAddr_lt ha), if_pos ((entersUpdate_iff ..).mpr h), goto]

/-- Its way into the application (R241, R244). -/
theorem entryStep_app (h : eeByte s.cfg.flagAddr s ≠ 0xFF ∧ ctrl ≠ s.cfg.ctrlActive) :
    entryStep n ctrl s = transferToApp { s with pullup := true } := by
  have hupdate : ¬ entersUpdate (eeByte s.cfg.flagAddr s) ctrl s.cfg = true := fun hu =>
    ((entersUpdate_iff ..).mp hu).elim h.1 h.2
  rw [entryStep, if_pos (flagAddr_lt ha), if_neg hupdate]

end

/-- Settles O53: FLAG_ADDR lies in EE, so ENTRY decides by the byte and the input, and its transfer by the reset. -/
theorem entryDecisionChoosesThePath : Obligations.EntryDecisionChoosesThePath := by
  intro s rest ctrl r n hs hc hh hst
  have hstep : step s = entryStep n ctrl { s with script := rest } := step_host hs ⟨hc, hh, hst⟩
  refine ⟨fun hupdate => ?update, fun happ hfresh => ?transfer, fun happ hstale => ?refusal⟩
  case update =>
    rw [hstep]
    exact entryStep_update n hs.1 hupdate
  case transfer =>
    rw [hstep, entryStep_app (s := { s with script := rest }) n hs.1 happ]
    exact transferToApp_fresh hfresh
  case refusal =>
    rw [hstep, entryStep_app (s := { s with script := rest }) n hs.1 happ]
    exact transferToApp_stale hstale

/-! ### The other statements -/

theorem toggle_eq_ite (l : Led) : l.toggle = if l = .on then .off else .on := by
  cases l <;> rfl

section
variable {n k : Nat} {ctrl : Bool} {r : ResetDraw} {s : State}

theorem stmtStep_legal {w : Word} {i : Instr} (hd : decodeCmd w = .ok i) : stmtStep n k ctrl r s (.command w) =
    .next { s with cmd := some w, hpc := .stmt (n + 1) 0, issued := true } := by
  rw [stmtStep, issue, hd]

theorem stmtStep_illegal {w : Word} {e : DecodeReject} (hd : decodeCmd w = .error e) :
    stmtStep n k ctrl r s (.command w) = .next { s with fault := .illegalCmd, faultRec := .word w } := by
  rw [stmtStep, issue, hd, raiseFault]

theorem stmtStep_jeqRes {imm v : Word} {target : Nat} (hv : resSeen s = v) :
    stmtStep n k ctrl r s (.jeqRes imm target) =
      .next { s with hpc := .stmt (if v = imm then target else n + 1) 0 } := by
  rw [stmtStep, hv, goto]

theorem stmtStep_ledToggle : stmtStep n k ctrl r s .ledToggle =
    .next { s with hpc := .stmt (n + 1) 0, led := if s.led = .on then .off else .on } := by
  rw [stmtStep, goto, toggle_eq_ite]

/-- WAIT.CTRL stays where it is while the input is actuated (R250). -/
theorem stmtStep_waitCtrl (hh : s.hpc = .stmt n k) : stmtStep n k ctrl r s .waitCtrl = .next { s with
    pullup := true, hpc := if ctrl = s.cfg.ctrlActive then .stmt n k else .stmt (n + 1) 0 } := by
  rw [stmtStep]
  split
  · rw [← hh]
  · rw [goto]

section
variable {cnt target : Nat}

/-- POLL after a probe that found activity (R250). -/
theorem stmtStep_poll_active (hk : k ≠ 0) (hr : s.res = 1) :
    stmtStep n k ctrl r s (.poll cnt target) = .next { s with hpc := .stmt target 0 } := by
  rw [stmtStep, pollStep, if_pos ⟨hk, hr⟩, goto]

variable (h : k = 0 ∨ s.res ≠ 1)
include h

/-- POLL with no activity found and a probe left to issue (R250). -/
theorem stmtStep_poll_probe (hlt : k < cnt) : stmtStep n k ctrl r s (.poll cnt target) =
    .next { s with cmd := some (tableWord .actProbe), hpc := .stmt n (k + 1), issued := true } := by
  have hquiet : ¬ (k ≠ 0 ∧ s.res = 1) := not_and_or.mpr (h.imp_left not_not.mpr)
  rw [stmtStep, pollStep, if_neg hquiet, if_pos hlt]
  rfl

/-- POLL with no activity found by the last of its probes (R250). -/
theorem stmtStep_poll_exhausted (hle : cnt ≤ k) :
    stmtStep n k ctrl r s (.poll cnt target) = .next { s with hpc := .stmt (n + 1) 0 } := by
  have hquiet : ¬ (k ≠ 0 ∧ s.res = 1) := not_and_or.mpr (h.imp_left not_not.mpr)
  rw [stmtStep, pollStep, if_neg hquiet, if_neg (Nat.not_lt.mpr hle), goto]

end
end

/-- Settles O55: HOST's step is the statement's own, and each clause names its outcome. -/
theorem hostStatements : Obligations.HostStatements := by
  intro s rest ctrl r n k hs hc hh
  have hstep {st : HostStmt} (hst : s.prog[n]? = some st) :
      step s = stmtStep n k ctrl r { s with script := rest } st := step_host hs ⟨hc, hh, hst⟩
  refine ⟨fun w i hst hd => ?legal, fun w e hst hd => ?illegal, fun hst hfresh => ?transfer,
    fun hst hstale => ?refusal, fun m hst => ?jmp, fun imm m hst hw => ?jeqWritten, fun imm m hst hw => ?jeqFree,
    fun hst => ?ledToggle, fun hst => ?ledOn, fun hst => ?waitCtrl, fun hst => ?reset,
    fun cnt m hst => ⟨fun hk hr => ?active, fun h hlt => ?probe, fun h hle => ?exhausted⟩⟩ <;>
    refine (hstep hst).trans ?_
  case legal => exact stmtStep_legal hd
  case illegal => exact stmtStep_illegal hd
  case transfer => exact transferToApp_fresh hfresh
  case refusal => exact transferToApp_stale hstale
  case jmp | ledOn | reset => rfl
  case jeqWritten => exact stmtStep_jeqRes (resSeen_written hw)
  case jeqFree => exact stmtStep_jeqRes (resSeen_unwritten hw)
  case ledToggle => exact stmtStep_ledToggle
  case waitCtrl => exact stmtStep_waitCtrl hh
  case active => exact stmtStep_poll_active hk hr
  case probe => exact stmtStep_poll_probe h hlt
  case exhausted => exact stmtStep_poll_exhausted h hle

/-! ### The acknowledgement of a block -/

/-- HOST's command line, in a run. -/
theorem eventRun_command {n k : Nat} {w : Word} {i : Instr} {s : State} (ctrl : Bool) (r : ResetDraw)
    (ha : s.cfg.Admitted) (hf : FaultFree s) (h : AtStmt n k (.command w) s) (hd : decodeCmd w = .ok i) :
    EventRun [.host ctrl r] s { s with cmd := some w, hpc := .stmt (n + 1) 0, issued := true } :=
  eventRun_host ha hf h fun _ => stmtStep_legal hd

/-- HOST's JEQ where a command wrote `RES`, in a run. -/
theorem eventRun_jeqRes {n k target : Nat} {imm : Word} {s : State} (ctrl : Bool) (r : ResetDraw)
    (ha : s.cfg.Admitted) (hf : FaultFree s) (h : AtStmt n k (.jeqRes imm target) s) (hw : s.resW = true) :
    EventRun [.host ctrl r] s { s with hpc := .stmt (if s.res = imm then target else n + 1) 0 } :=
  eventRun_host ha hf h fun _ => stmtStep_jeqRes (resSeen_written hw)

/-- Settles O56: JEQ goes to the statement that issues TX.SEND with the byte `RES` asks for. -/
theorem acknowledgeAfterProgramming : Obligations.AcknowledgeAfterProgramming := by
  intro s rest c1 c2 r1 r2 ha hf hprog hc hh hw hs
  have hjeq := eventRun_jeqRes c1 r1 ha hf (.ofReference hprog hc hh rfl) hw
  by_cases hr : s.res = 1
  · rw [if_pos hr] at hjeq
    have hsend := hjeq.trans (eventRun_command c2 r2 ha hf (.ofReference hprog hc rfl rfl) rfl)
    rw [if_pos hr]
    exact ⟨14, hsend.run hs⟩
  · rw [if_neg hr] at hjeq
    have hsend := hjeq.trans (eventRun_command c2 r2 ha hf (.ofReference hprog hc rfl rfl) rfl)
    rw [if_neg hr]
    exact ⟨12, hsend.run hs⟩

/-! ### Boots -/

theorem resetEE_quiet {s : State} (r : ResetDraw) (hb : s.nvmBusy = false) : resetEE r s = s.ee := by
  simp [resetEE, hb]

theorem eventRun_reset {s : State} (r : ResetDraw) (ha : s.cfg.Admitted) (hf : FaultFree s) :
    EventRun [.reset r] s (deviceReset r s) := .one ha hf fun _ => rfl

/-- The reference host with the flag programmed and no commit in progress, which a reset would cut (R243). -/
structure FlagProgrammed (s : State) : Prop where
  admitted : s.cfg.Admitted
  faultFree : FaultFree s
  prog : s.prog = referenceProgram s.cfg
  quiet : s.nvmBusy = false
  flag : eeByte s.cfg.flagAddr s ≠ 0xFF

/-- A boot with the input not actuated: a reset, and HOST's step at ENTRY (R240, R241). -/
def bootEvents (c : Config) (d : ResetDraw × ResetDraw) : List Event := [.reset d.1, .host (!c.ctrlActive) d.2]

/-- The state after it where the flag is programmed. -/
def booted (r : ResetDraw) (s : State) : State :=
  { deviceReset r s with pullup := true, mode := .app, hpc := .app s.cfg.appStart }

/-- No byte is in `TXH` and no commit in progress after a boot, so the next reset has nothing to draw. -/
theorem booted_booted (r r' : ResetDraw) (s : State) : booted r' (booted r s) = booted r s := rfl

theorem booted_flagProgrammed {s : State} (r : ResetDraw) (h : FlagProgrammed s) : FlagProgrammed (booted r s) where
  admitted := h.admitted
  faultFree := rfl
  prog := h.prog
  quiet := rfl
  flag := by
    rw [eeByte_congr (t := booted r s) (resetEE_quiet r h.quiet)]
    exact h.flag

theorem eventRun_boot {s : State} (d : ResetDraw × ResetDraw) (h : FlagProgrammed s) :
    EventRun (bootEvents s.cfg d) s (booted d.1 s) := by
  have hentry : AtStmt 0 0 .entry (deviceReset d.1 s) := .ofReference h.prog rfl rfl rfl
  refine (eventRun_reset d.1 h.admitted h.faultFree).trans (eventRun_host h.admitted rfl hentry fun es => ?_)
  have happ := entryStep_app (s := { deviceReset d.1 s with script := es }) (ctrl := !s.cfg.ctrlActive) 0 h.admitted
    ⟨(booted_flagProgrammed d.1 h).flag, Bool.not_ne_self _⟩
  exact happ.trans (transferToApp_fresh ⟨rfl, rfl⟩)

/-- Every further boot ends as the first (R243). -/
theorem eventRun_boots {s : State} (d : ResetDraw × ResetDraw) (ds : List (ResetDraw × ResetDraw))
    (h : FlagProgrammed s) : EventRun ((d :: ds).flatMap (bootEvents s.cfg)) s (booted d.1 s) := by
  induction ds generalizing d s with
  | nil => exact eventRun_boot d h
  | cons d' ds ih =>
    have hfurther := ih d' (booted_flagProgrammed d.1 h)
    rw [booted_booted] at hfurther
    exact (eventRun_boot d h).trans hfurther

/-- Settles O54, by induction on the boots. -/
theorem entryDecisionIsIdempotent : Obligations.EntryDecisionIsIdempotent := by
  intro d ds s rest ha hf hprog hb hflag hs
  have hlen : ((d :: ds).flatMap (bootEvents s.cfg)).length = 2 * (ds.length + 1) := by
    simp [bootEvents]
    omega
  rw [← hlen]
  exact (eventRun_boots d ds ⟨ha, hf, hprog, hb, hflag⟩).run hs

/-! ### The application's re-entry request -/

theorem appStep_request {s : State} {entry : Nat} (r : ResetDraw) (hh : s.hpc = .app entry) (hb : s.nvmBusy = false) :
    appStep r s = { s with pending := some (.ee s.cfg.flagAddr ERASED), nvmBusy := true, hpc := .appReset } := by
  simp [appStep, hh, hb, startCommit]

theorem appStep_complete {s : State} (r : ResetDraw) (hh : s.hpc = .appReset) (hb : s.nvmBusy = false) :
    appStep r s = deviceReset r s := by
  simp only [appStep, hh, hb, Bool.false_eq_true, if_false]

/-- The request's first step starts the flag write (R246). -/
theorem eventRun_appRequest {s : State} {entry : Nat} (r : ResetDraw) (ha : s.cfg.Admitted) (hf : FaultFree s)
    (hh : s.hpc = .app entry) (hb : s.nvmBusy = false) :
    EventRun [.app r] s { s with
      pending := some (.ee s.cfg.flagAddr ERASED), nvmBusy := true, hpc := .appReset } :=
  .one ha hf fun es => by
    rw [agentStep, appStep_request (s := { s with script := es }) r hh hb]

/-- Its last step, the write complete, resets the device (R246). -/
theorem eventRun_appReset {s : State} (r : ResetDraw) (ha : s.cfg.Admitted) (hf : FaultFree s)
    (hh : s.hpc = .appReset) (hb : s.nvmBusy = false) : EventRun [.app r] s (deviceReset r s) :=
  .one ha hf fun es => by
    rw [agentStep, appStep_complete (s := { s with script := es }) r hh hb]
    rfl

/-- Settles O57: the completion writes the one byte, and the reset that follows finds no commit to cut. -/
theorem appRequestErasesTheFlag : Obligations.AppRequestErasesTheFlag := by
  intro s rest r1 r2 entry ha hf hh hb hs
  have hwrite := (eventRun_appRequest r1 ha hf hh hb).trans (eventRun_completeFlag ha hf rfl rfl (flagAddr_lt ha))
  have hrun := hwrite.trans (eventRun_appReset r2 ha hf rfl rfl)
  refine ⟨_, hrun.run hs, ?flag, fun a hne => ?others, flashByte_congr rfl, rfl, rfl, rfl⟩
  case flag => exact eeByte_writeBytes (j := 0) rfl rfl
  case others =>
    refine eeByte_writeBytes_outside rfl ?_
    rw [List.length_singleton]
    omega

end Sys2Proof.Proofs.HostProgram
end

section
/-! SUPPORT. Faults are precise: a step of any agent leaves `FAULT` alone, resets the device, or does nothing but raise a
fault (R262). -/

namespace Sys2Proof.Proofs.Faults
open Sys2Proof.Machine
open Sys2Proof.Proofs.Invariants

/-! ### The commands that raise no fault -/

theorem transportNext_fault {i : Instr} {s t : State} (h : TransportNext s i t) : t.fault = s.fault := by
  cases h <;> rfl

theorem packetNext_fault {b : Byte} {s t : State} (h : PacketNext s b t) : t.fault = s.fault := by
  cases h <;> rfl

theorem framerNext_fault {s t : State} (h : FramerNext s t) : t.fault = s.fault := by
  cases h with
  | data b q _ hq h => exact (packetNext_fault h :)
  | _ => rfl

theorem flagNext_fault {s t : State} (h : FlagNext s t) : t.fault = s.fault := by
  cases h <;> rfl

/-! ### The steps that may raise one -/

/-- `FAULT` and its record are all that differs (R262). -/
def OnlyRaises (s t : State) : Prop := t = raiseFault t.fault t.faultRec s

theorem onlyRaises_raiseFault (c : FaultCode) (r : FaultRecord) (s : State) : OnlyRaises s (raiseFault c r s) := rfl

/-- CRC.CALC raises PB_INVALID where there is no block (R153). -/
theorem crcNext_fault {s t : State} (h : CrcNext s t) : t.fault = s.fault ∨ OnlyRaises s t := by
  cases h with
  | compute => exact .inl rfl
  | invalid => exact .inr (onlyRaises_raiseFault _ _ s)

/-- NVM.WRBLK raises PB_INVALID or CURSOR_RANGE, both in its first step (R200, R265). -/
theorem writeNext_fault {s t : State} (h : WriteNext s t) : t.fault = s.fault ∨ OnlyRaises s t := by
  cases h with
  | invalid | range => exact .inr (onlyRaises_raiseFault _ _ s)
  | _ => exact .inl rfl

theorem blockNext_fault {s t : State} (h : BlockNext s t) : t.fault = s.fault ∨ OnlyRaises s t := by
  cases h with
  | transport i _ _ h => exact .inl (transportNext_fault h)
  | crc _ h => exact crcNext_fault h
  | framer _ h => exact .inl (framerNext_fault h)
  | write _ h => exact writeNext_fault h
  | flag _ h => exact .inl (flagNext_fault h)

/-- HOST raises ILLEGAL_CMD, and its RESET clears `FAULT` (R103, R290). -/
theorem hostNext_fault {s t : State} (h : HostNext s t) :
    t.fault = s.fault ∨ t.fault = .none ∨ OnlyRaises s t := by
  cases h with
  | illegal w => exact .inr (.inr (onlyRaises_raiseFault _ _ s))
  | reset r => exact .inr (.inl (deviceReset_fault r s))
  | _ => exact .inl rfl

/-- Of the other steps a read of `PB` outside its window raises PB_INVALID, and a device reset clears `FAULT` (R52,
R290). -/
theorem outsideNext_fault {s t : State} (h : OutsideNext s t) :
    t.fault = s.fault ∨ t.fault = .none ∨ OnlyRaises s t := by
  cases h with
  | badRead n => exact .inr (.inr (onlyRaises_raiseFault _ _ s))
  | reset r => exact .inr (.inl (deviceReset_fault r s))
  | _ => exact .inl rfl

theorem step_fault {s t : State} (h : step s = .next t) :
    t.fault = s.fault ∨ t.fault = .none ∨ OnlyRaises (takeEvent s) t := by
  rw [← takeEvent_fault s]
  obtain rfl | ⟨_, w, i, hc, hd, h⟩ | ⟨_, w, e, _, _, rfl⟩ | ⟨_, _, _, h⟩ | ⟨_, h⟩ := step_next h
  · exact .inl rfl
  · exact (blockNext_fault (exec_blockNext (by simpa using hc) hd h)).imp_right .inr
  · exact .inr (.inr (onlyRaises_raiseFault _ _ _))
  · exact hostNext_fault h
  · exact outsideNext_fault h

/-- Settles O10: a step that neither keeps `FAULT` at 0 nor resets it does nothing but raise the fault. -/
theorem faultsArePrecise : Obligations.FaultsArePrecise := by
  intro s t hfree h hset
  obtain hkept | hcleared | hraised := step_fault h
  · exact absurd (hkept.trans hfree) hset
  · exact absurd hcleared hset
  · exact hraised

end Sys2Proof.Proofs.Faults
end

section
/-! SUPPORT. The device reset (R290): what it leaves of `TXH` and of the memories, the registers R55 gives a value, and
that a second one changes nothing (R292). -/

namespace Sys2Proof.Proofs.Reset
open Sys2Proof.Machine
open Sys2Proof.Proofs.HostProgram

/-! ### What the draws decide -/

/-- The byte in `TXH`, where there is one, is delivered or lost (R290). -/
theorem resetTxlog_eq (r : ResetDraw) (s : State) :
    resetTxlog r s = s.txlog ++ if r.txDelivered then s.txh.toList else [] := by
  unfold resetTxlog
  cases s.txh with
  | none => simp
  | some b => cases r.txDelivered <;> simp

theorem resetTxlog_empty {s : State} (r : ResetDraw) (ht : s.txh = none) : resetTxlog r s = s.txlog := by
  simp [resetTxlog_eq, ht]

theorem resetFlash_quiet {s : State} (r : ResetDraw) (hb : s.nvmBusy = false) : resetFlash r s = s.flash := by
  simp [resetFlash, hb]

/-! ### The registers without a value -/

/-- The registers that only a command gives a value read as unwritten after a reset (log entry 6). -/
theorem readRegister_deviceReset_unwritten {n : Nat} (r : ResetDraw) (s : State)
    (hn : n ∈ [0x01, 0x04, 0x05, 0x06]) : readRegister n (deviceReset r s) = .unwritten := by
  have hcases : n = 0x01 ∨ n = 0x04 ∨ n = 0x05 ∨ n = 0x06 := by simpa using hn
  obtain rfl | rfl | rfl | rfl := hcases <;> rfl

/-! ### The obligations -/

/-- Settles O50: the step is the device reset, whose fields are what R55 gives; the log and the memories are what the
draws leave of them. -/
theorem deviceResetState : Obligations.DeviceResetState := by
  intro s rest r hs
  refine ⟨deviceReset r { s with script := rest }, step_scheduled hs, rfl, rfl, ?txlog, rfl, rfl, rfl, rfl, rfl, rfl,
    rfl, rfl, rfl, rfl, rfl, rfl, rfl, rfl, rfl, rfl, rfl, rfl, rfl, rfl, rfl, rfl, rfl, ?unwritten, ?memories⟩
  case txlog => exact resetTxlog_eq r { s with script := rest }
  case unwritten => exact fun _ hn => readRegister_deviceReset_unwritten r _ hn
  case memories => exact fun hb => ⟨flashByte_congr (resetFlash_quiet r hb), eeByte_congr (resetEE_quiet r hb)⟩

/-- Settles O52: a device reset leaves `TXH` empty and no commit in progress, so that the second has nothing to draw. -/
theorem resetIsIdempotent : Obligations.ResetIsIdempotent := by
  intro s r r'
  have hlog := resetTxlog_empty (s := deviceReset r s) r' rfl
  have hflash := resetFlash_quiet (s := deviceReset r s) r' rfl
  have hee := resetEE_quiet (s := deviceReset r s) r' rfl
  rw [deviceReset, hlog, hflash, hee]
  rfl

end Sys2Proof.Proofs.Reset
end
